-- ==== Sys2Proof/Word.lean ====
section
/-! DEFINITION. The words of the WSPR encoder core: bytes of the register window, the 32-bit words of the hasher and of
the convolutional encoder (00_scope.md R8). -/

namespace Sys2Proof

/-- A register slot, a character, a byte of the window (R8, R33). -/
abbrev Byte := BitVec 8

/-- A hasher accumulator (R25) or a shift register of the convolutional encoder (R24). -/
abbrev Word32 := BitVec 32

end Sys2Proof
end

