-- ==== Sys2Proof/Syntax.lean ====
section
/-! DEFINITION. The instructions (one constructor per row of opcode_table.json), the two word formats that carry them
(30_encoding.md R42, R43), what can wait at the host port, and the script actions of R47 and R48. -/

namespace Sys2Proof

/-- The source's `messageType`, the TYPE field of a command word (R42, R45). -/
inductive MessageType where
  | type1
  | type2
  | type3
deriving DecidableEq, Repr

/-- The three commands and the two host transactions (R45). RD's DATA field is ignored (R43), so it is no operand. -/
inductive Instr where
  | enc1
  | enc2
  | enc3
  | wr (addr data : Byte)
  | rd (addr : Byte)
deriving DecidableEq, Repr

/-- A word of one of the two formats: an 8-bit command word written to CMD (R42), or a 17-bit host transaction
`w aaaaaaaa dddddddd` (R43). -/
inductive HostWord where
  | cmd (w : BitVec 8)
  | host (w : BitVec 17)
deriving DecidableEq, Repr

/-- What the outside world does to the core next: a transaction of the host, or the reset event of R123. -/
inductive HostEvent where
  | word (w : HostWord)
  | reset
deriving DecidableEq, Repr

/-- The register names a script may use (R47, R31). -/
inductive RegName where
  | call | callLen | power | loc4 | loc6 | pfx | sfx | flags | cmd | status | sym
deriving DecidableEq, Repr

/-- A register in a script line: `NAME[i]` (a plain `NAME` is `NAME[0]`), or a bare offset as in `WR 0x1D, 0xAA`
(R47, programs P1 to P5). -/
inductive RegRef where
  | named (r : RegName) (i : Nat)
  | offset (a : Nat)
deriving DecidableEq, Repr

/-- One line of a script: the actions of R47 and the pseudo-operations of R48. `expected` is the `-> value` a line may
state; it is a remark about the response and changes nothing. -/
inductive ScriptAction where
  | wr (reg : RegRef) (value : Nat)
  | rd (reg : RegRef) (expected : Option Nat)
  | wrs (reg : RegName) (text : List Char)
  | setcall (text : List Char)
  | start (k : Nat)
  | enc1
  | enc2
  | enc3
  | wait
  | rdsym
deriving DecidableEq, Repr

end Sys2Proof
end

