-- ==== Sys2Proof/Machine/RegisterMap.lean ====
section
/-! DEFINITION. The register map of the window (20_memory.md R30, R31, R32): where BASE places the window, which register
an offset reaches, and the offset of a register name of a script (R47). -/

namespace Sys2Proof.Machine

/-- The host's address of a window offset, for the placement `base` of the window (R30). -/
def hostAddress (base : Nat) (offset : Byte) : Nat := base + offset.toNat

/-- The window offset at a host's address, for the placement `base`: 256 locations from `base` up, and none elsewhere
(R30). -/
def offsetAt (base address : Nat) : Option Byte :=
  if base ≤ address && address < base + 256 then some (BitVec.ofNat 8 (address - base)) else none

/-- The transaction a host's read of an address is, for the placement `base`; none outside the window (R30). -/
def readAt (base address : Nat) : Option Instr := (offsetAt base address).map Instr.rd

/-- The transaction a host's write of a byte at an address is, for the placement `base`; none outside the window (R30). -/
def writeAt (base address : Nat) (data : Byte) : Option Instr := (offsetAt base address).map fun a => .wr a data

/-- What stands at a window offset (R31). -/
inductive Location where
  | call (i : Fin 10)
  | callLen
  | power
  | loc4 (i : Fin 4)
  | loc6 (i : Fin 6)
  | pfx (i : Fin 3)
  | sfx
  | flags
  | cmd
  | status
  | sym (i : Fin 162)
  | reserved
deriving DecidableEq, Repr

/-- The register map (R31); the reserved offsets are 0x1D to 0x1F and 0xC2 to 0xFF (R32). -/
def locationAt (offset : Byte) : Location :=
  let a := offset.toNat
  if h : a < 0x0A then .call ⟨a, h⟩
  else if a = 0x0A then .callLen
  else if a = 0x0B then .power
  else if h : a - 0x0C < 4 then .loc4 ⟨a - 0x0C, h⟩
  else if h : a - 0x10 < 6 then .loc6 ⟨a - 0x10, h⟩
  else if h : a - 0x16 < 3 then .pfx ⟨a - 0x16, h⟩
  else if a = 0x19 then .sfx
  else if a = 0x1A then .flags
  else if a = 0x1B then .cmd
  else if a = 0x1C then .status
  else if a < 0x20 then .reserved
  else if h : a - 0x20 < 162 then .sym ⟨a - 0x20, h⟩
  else .reserved

end Sys2Proof.Machine

namespace Sys2Proof

/-- The offset of element 0 of a named register (R31, R47). -/
def RegName.offset : RegName → Nat
  | .call => 0x00
  | .callLen => 0x0A
  | .power => 0x0B
  | .loc4 => 0x0C
  | .loc6 => 0x10
  | .pfx => 0x16
  | .sfx => 0x19
  | .flags => 0x1A
  | .cmd => 0x1B
  | .status => 0x1C
  | .sym => 0x20

/-- How many elements a named register has (R31). -/
def RegName.count : RegName → Nat
  | .call => 10
  | .loc4 => 4
  | .loc6 => 6
  | .pfx => 3
  | .sym => 162
  | .callLen | .power | .sfx | .flags | .cmd | .status => 1

/-- The offset a script line's register stands for (R47). -/
def RegRef.toOffset : RegRef → Nat
  | .named r i => r.offset + i
  | .offset a => a

end Sys2Proof
end

