-- ==== Sys2Proof/WellFormed.lean ====
section
/-! DEFINITION. What is well formed. An instruction's fields are bytes, so every instruction is (R33, R43); a script line
has ranges to keep (R47, R48; log 11). -/

namespace Sys2Proof

/-- Every value of every operand has an encoding (R43, R45): ADDR and DATA are 8-bit fields and both are bytes here. -/
def Instr.wellFormed : Instr → Bool
  | .enc1 => true
  | .enc2 => true
  | .enc3 => true
  | .wr _ _ => true
  | .rd _ => true

/-- `NAME[i]` names an element the register has; a bare offset lies in the window (R30, R31, R47). -/
def RegRef.wellFormed : RegRef → Bool
  | .named r i => i < r.count
  | .offset a => a < 256

/-- A character of a script text stands for its ASCII code (R47, R8). -/
def charWellFormed (c : Char) : Bool := c.toNat < 128

/-- A script line that stands for transactions of the core: values are bytes (R33), a text fits its register, SETCALL's
text has at most 10 characters (R48), a started command word is a byte (R42). -/
def ScriptAction.wellFormed : ScriptAction → Bool
  | .wr reg value => reg.wellFormed && value < 256
  | .rd reg expected => reg.wellFormed && expected.all (· < 256)
  | .wrs reg text => text.length ≤ reg.count && text.all charWellFormed
  | .setcall text => text.length ≤ 10 && text.all charWellFormed
  | .start k => k < 256
  | .enc1 => true
  | .enc2 => true
  | .enc3 => true
  | .wait => true
  | .rdsym => true

end Sys2Proof
end

