-- ==== Sys2Proof/Decode.lean ====
section
/-! DEFINITION. Decoding and encoding of the two word formats (30_encoding.md R42, R43, R45, R46), over words and over the
bytes a packet of the host would hold (log 9). -/

namespace Sys2Proof

/-- Why a word or a packet is no instruction. -/
inductive DecodeError where
  /-- One of the 253 reserved command words (R46). -/
  | reservedCommand (w : Byte)
  /-- The third byte of a 17-bit transaction has a bit above bit 16 (R43; log 9). -/
  | paddingNotZero (b : Byte)
  /-- Neither 1 byte (CMD format) nor 3 bytes (HOST format). -/
  | badLength (n : Nat)
deriving DecidableEq, Repr

/-- The decoder of R45: `if word and 0xFC != 0 then reserved else case word[1:0]`. -/
def messageTypeOf (w : Byte) : Option MessageType :=
  if w.extractLsb' 2 6 = 0 then
    match (w.extractLsb' 0 2).toNat with
    | 1 => some .type1
    | 2 => some .type2
    | 3 => some .type3
    | _ => none
  else none

/-- The command that starts a message type (R45). -/
def commandOf : MessageType → Instr
  | .type1 => .enc1
  | .type2 => .enc2
  | .type3 => .enc3

/-- Format CMD (R42, R45, R46). -/
def decodeCommand (w : Byte) : Except DecodeError Instr :=
  match messageTypeOf w with
  | some t => .ok (commandOf t)
  | none => .error (.reservedCommand w)

/-- Format HOST (R43): bit 16 is W, bits 15:8 ADDR, bits 7:0 DATA, which RD ignores. -/
def decodeHost (w : BitVec 17) : Instr :=
  let addr := w.extractLsb' 8 8
  let data := w.extractLsb' 0 8
  if w.getLsbD 16 then .wr addr data else .rd addr

/-- The instruction a word stands for. -/
def decodeWord : HostWord → Except DecodeError Instr
  | .cmd w => decodeCommand w
  | .host w => .ok (decodeHost w)

/-- The word in a packet of bytes (log 9): one byte is a command word; three bytes are a transaction, bits 7:0 first,
with bits 7:1 of the third byte zero. -/
def readWord : List Byte → Except DecodeError HostWord
  | [b] => .ok (.cmd b)
  | [b0, b1, b2] =>
    if b2.extractLsb' 1 7 = 0 then .ok (.host (b2.extractLsb' 0 1 ++ b1 ++ b0)) else .error (.paddingNotZero b2)
  | bytes => .error (.badLength bytes.length)

/-- The instruction in a packet of bytes; total, rejecting by name. -/
def decodeBytes (bytes : List Byte) : Except DecodeError Instr :=
  match readWord bytes with
  | .ok w => decodeWord w
  | .error e => .error e

/-- The word of an instruction (R43, R45). RD's ignored DATA field is written as 0 (R47). -/
def encode : Instr → HostWord
  | .enc1 => .cmd 0x01
  | .enc2 => .cmd 0x02
  | .enc3 => .cmd 0x03
  | .wr addr data => .host (1#1 ++ addr ++ data)
  | .rd addr => .host (0#1 ++ addr ++ 0#8)

/-- The packet of a word (log 9). -/
def wordBytes : HostWord → List Byte
  | .cmd w => [w]
  | .host w => [w.extractLsb' 0 8, w.extractLsb' 8 8, 0#7 ++ w.extractLsb' 16 1]

/-- The packet of an instruction. -/
def encodeBytes (i : Instr) : List Byte := wordBytes (encode i)

/-- The lowest `n` bytes of a number, bits 7:0 first (log 9). -/
def layOut : Nat → Nat → List Byte
  | 0, _ => []
  | n + 1, w => BitVec.ofNat 8 w :: layOut n (w / 256)

/-- The instruction this decoder reads from a row's word of `nbits` bits, rounded up to whole bytes. -/
def decodeTableWord (nbits w : Nat) : Option Instr :=
  match decodeBytes (layOut ((nbits + 7) / 8) w) with
  | .ok i => some i
  | .error _ => none

end Sys2Proof
end

