-- ==== Sys2Proof/Machine/Parameters.lean ====
section
/-! DEFINITION. The fixed parameters of the core (00_scope.md R6), each a literal of the source, and the open
parameters SYNC and BASE with their defaults (R7, 46_sync_merger.md R98, 20_memory.md R30). NSYM = 162, NBYTES = 11 and the register counts stand as literals in the
types that use them. -/

namespace Sys2Proof.Machine

/-- CALL_MAX (R6, R13): the capacity of the call-sign field. -/
def callMax : Nat := 10

/-- FALLBACK_LOC (R6, R60): "AA00". -/
def fallbackLocator : Vector Byte 4 := #v[0x41, 0x41, 0x30, 0x30]

/-- SENTINEL (R6, R49): what `code` gives for a character it cannot encode. -/
def sentinel : Nat := 255

/-- SFX_BASE (R6, R71). -/
def suffixBase : Nat := 27232

/-- SFX_MAX (R6, R18). -/
def suffixMax : Nat := 81

/-- PFX_SPLIT (R6, R72): the largest value that keeps the offset +65. -/
def pfxSplit : Nat := 32767

/-- HASH_SEED (R6, R80). -/
def hashSeed : Word32 := 0xDEADBEEF

/-- HASH_INIT (R6, R80). -/
def hashInit : Word32 := 146

/-- HASH_LEN_MIN (R6, R79). -/
def hashLenMin : Nat := 3

/-- HASH_LEN_MAX (R6, R79). -/
def hashLenMax : Nat := 10

/-- POLY0 (R6, R87, R88). -/
def poly0 : Word32 := 0xF2D05351

/-- POLY1 (R6, R87, R88). -/
def poly1 : Word32 := 0xE4613C47

/-- NBITS_IN (R6, R89): the input bits one ENCODE consumes. -/
def inputBitCount : Nat := 81

/-- A synchronization vector (R98): 162 entries, each 0 (`false`) or 1 (`true`). -/
abbrev SyncVector := Vector Bool 162

/-- A bit of the default vector's listing. -/
def bitOfDigit (n : Nat) : Bool := n == 1

/-- The rows of the default SYNC as R98 prints them, entry 0 first. -/
def defaultSyncRows : List (List Nat) :=
  [[1,1,0,0,0,0,0,0,1,0,0,0,1,1,1,0,0,0,1,0,0,1,0,1,1,1,1,0,0,0,0,0],
   [0,0,1,0,0,1,0,1,0,0,0,0,0,0,1,0,1,1,0,0,1,1,0,1,0,0,0,1,1,0,1,0],
   [0,0,0,1,1,0,1,0,1,0,1,0,1,0,0,1,0,0,1,0,1,1,0,0,0,1,1,0,1,0,1,0],
   [0,0,1,0,0,0,0,0,1,0,0,1,0,0,1,1,1,0,1,1,0,0,1,1,0,1,0,0,0,1,1,1],
   [0,0,0,0,0,1,0,1,0,0,1,1,0,0,0,0,0,0,0,1,1,0,1,0,1,1,0,0,0,1,1,0],
   [0,0]]

theorem defaultSyncRows_length : defaultSyncRows.flatten.length = 162 := by
  rw [List.length_flatten]; decide

/-- The default of the open parameter SYNC (R98, D29, G2). PRESUMED by the spec from general knowledge; log 6. No meaning
names it: only the platform of `State.reset` does. -/
def syncVector : SyncVector :=
  ⟨(defaultSyncRows.flatten.map bitOfDigit).toArray, by rw [List.size_toArray, List.length_map, defaultSyncRows_length]⟩

/-- The default of the open parameter BASE (R7, R30, D12). -/
def defaultBase : Nat := 0

/-- The two open parameters of the spec (R7): what one core is built with, the same for every message (R98). Each may have
any value; logs 6, 14 and 22. -/
structure Platform where
  /-- SYNC, the synchronization vector (R98, D29). -/
  sync : SyncVector
  /-- BASE, the host's address of offset 0 of the register window (R30, D12). -/
  base : Nat
deriving DecidableEq, Repr

/-- The platform with both parameters at their defaults (R7). -/
def Platform.standard : Platform := ⟨syncVector, defaultBase⟩

end Sys2Proof.Machine
end

