-- ==== Sys2Proof/Machine/Convolution.lean ====
section
/-! DEFINITION. The Convolutional Encoder (44_convolutional_encoder.md), rate 1/2, constraint length 32. -/

namespace Sys2Proof.Machine

/-- `popcount` (R8). -/
def popcount (x : Word32) : Nat := (List.range 32).countP fun i => x.getLsbD i

/-- `parity` (R8), as a bit. -/
def parity (x : Word32) : Bool := popcount x % 2 == 1

/-- Input bit `t` of the buffer, MSB first (R38, R85). -/
def inputBit (buf : Vector Byte 11) (t : Nat) : Bool := (buf[t / 8]?.getD 0).getLsbD (7 - t % 8)

/-- The input bits the encoder consumes (R89): 81 of the buffer's 88. -/
def inputBits (buf : Vector Byte 11) : List Bool := (List.range inputBitCount).map (inputBit buf)

/-- A register shifted left by one with the new bit at bit 0 (R87); the bit shifted out of bit 31 is lost. -/
def shiftIn (reg : Word32) (u : Bool) : Word32 := (reg <<< 1) ||| (BitVec.ofBool u).setWidth 32

/-- The steps of R87 over the input bits, from the registers `reg0` and `reg1` (R24): two parity outputs per bit, the
POLY0 one first. -/
def convLoop (reg0 reg1 : Word32) : List Bool → List Bool
  | [] => []
  | u :: rest =>
    parity (shiftIn reg0 u &&& poly0) :: parity (shiftIn reg1 u &&& poly1) ::
      convLoop (shiftIn reg0 u) (shiftIn reg1 u) rest

theorem convLoop_length (reg0 reg1 : Word32) (us : List Bool) : (convLoop reg0 reg1 us).length = 2 * us.length := by
  induction us generalizing reg0 reg1 with
  | nil => rfl
  | cons u us ih => simp only [convLoop, List.length_cons, ih]; omega

theorem inputBits_length (buf : Vector Byte 11) : (inputBits buf).length = 81 := by
  simp [inputBits, inputBitCount]

/-- `convEncode` (R87): both registers zero at the start (R86), exactly 162 output bits (R89). -/
def convEncode (buf : Vector Byte 11) : Vector Bool 162 :=
  ⟨(convLoop 0 0 (inputBits buf)).toArray, by simp [convLoop_length, inputBits_length]⟩

end Sys2Proof.Machine
end

