-- ==== Sys2Proof/Machine/Interleaver.lean ====
section
/-! DEFINITION. The Interleaver (45_interleaver.md): the bit-reversal permutation of 162 bits, and the two tables the
spec derives from it. -/

namespace Sys2Proof.Machine

/-- `rev8` (R8, R91): bit `7 - i` of the result is bit `i` of `j`. -/
def rev8 (j : Nat) : Nat :=
  j % 2 * 128 + j / 2 % 2 * 64 + j / 4 % 2 * 32 + j / 8 % 2 * 16 + j / 16 % 2 * 8 + j / 32 % 2 * 4 + j / 64 % 2 * 2 +
    j / 128 % 2

/-- The pass of R92 over the remaining indices `j` and the input bits not yet placed. The counter `p` of R26 is how many
bits have been taken from the front; they do not run out (R93; log 17). -/
def placeBits : List Nat → List Bool → Vector Bool 162 → Vector Bool 162
  | [], _, d => d
  | j :: js, bits, d =>
    if h : rev8 j < 162 then
      match bits with
      | [] => d
      | b :: rest => placeBits js rest (d.set (rev8 j) b h)
    else placeBits js bits d

/-- `interleave` (R92): `j` from 0 to 254. Every position of the output is written (R93), so what it starts from shows
nowhere (log 17). -/
def interleave (s : Vector Bool 162) : Vector Bool 162 :=
  placeBits (List.range 255) s.toList (Vector.replicate 162 false)

/-- DEST[p] (R94), as printed: the output position that receives input bit `p`. -/
def destTable : List Nat :=
  [0, 128, 64, 32, 160, 96, 16, 144, 80, 48, 112, 8, 136, 72, 40, 104, 24, 152] ++
  [88, 56, 120, 4, 132, 68, 36, 100, 20, 148, 84, 52, 116, 12, 140, 76, 44, 108] ++
  [28, 156, 92, 60, 124, 2, 130, 66, 34, 98, 18, 146, 82, 50, 114, 10, 138, 74] ++
  [42, 106, 26, 154, 90, 58, 122, 6, 134, 70, 38, 102, 22, 150, 86, 54, 118, 14] ++
  [142, 78, 46, 110, 30, 158, 94, 62, 126, 1, 129, 65, 33, 161, 97, 17, 145, 81] ++
  [49, 113, 9, 137, 73, 41, 105, 25, 153, 89, 57, 121, 5, 133, 69, 37, 101, 21] ++
  [149, 85, 53, 117, 13, 141, 77, 45, 109, 29, 157, 93, 61, 125, 3, 131, 67, 35] ++
  [99, 19, 147, 83, 51, 115, 11, 139, 75, 43, 107, 27, 155, 91, 59, 123, 7, 135] ++
  [71, 39, 103, 23, 151, 87, 55, 119, 15, 143, 79, 47, 111, 31, 159, 95, 63, 127]

/-- SRC[i] (R95), as printed: the input bit that lands at output position `i`. -/
def srcTable : List Nat :=
  [0, 81, 41, 122, 21, 102, 61, 142, 11, 92, 51, 132, 31, 112, 71, 152, 6, 87] ++
  [46, 127, 26, 107, 66, 147, 16, 97, 56, 137, 36, 117, 76, 157, 3, 84, 44, 125] ++
  [24, 105, 64, 145, 14, 95, 54, 135, 34, 115, 74, 155, 9, 90, 49, 130, 29, 110] ++
  [69, 150, 19, 100, 59, 140, 39, 120, 79, 160, 2, 83, 43, 124, 23, 104, 63, 144] ++
  [13, 94, 53, 134, 33, 114, 73, 154, 8, 89, 48, 129, 28, 109, 68, 149, 18, 99] ++
  [58, 139, 38, 119, 78, 159, 5, 86, 45, 126, 25, 106, 65, 146, 15, 96, 55, 136] ++
  [35, 116, 75, 156, 10, 91, 50, 131, 30, 111, 70, 151, 20, 101, 60, 141, 40, 121] ++
  [80, 161, 1, 82, 42, 123, 22, 103, 62, 143, 12, 93, 52, 133, 32, 113, 72, 153] ++
  [7, 88, 47, 128, 27, 108, 67, 148, 17, 98, 57, 138, 37, 118, 77, 158, 4, 85]

end Sys2Proof.Machine
end

