-- ==== Sys2Proof/Config.lean ====
section
/-! DEFINITION. What the spec leaves free. The numeric parameters of R6, and the open parameters SYNC and BASE with their
defaults, stand in Machine/Parameters.lean. -/

namespace Sys2Proof.Config

/-- FREE VALUE (R29, R124, U3; log 4): element `i` of SYM after reset number `k`, an arbitrary 2-bit value. It has no
body, so nothing can be proved of it. -/
opaque symAtReset (k i : Nat) : BitVec 2

end Sys2Proof.Config
end

