-- ==== Sys2Proof/Machine/State.lean ====
section
/-! DEFINITION. The state of the core (10_state.md), the reasons a step can stop, and the machine after reset (R29,
R123). -/

namespace Sys2Proof.Machine

/-- SYM (R22): 162 elements of 2 bits. -/
abbrev SymbolStream := Vector (BitVec 2) 162

/-- The registers of R12 to R22, the open parameters of R7, and three fields of the model's own:
`inbox`, `response`, `resetCount`. CMD holds no
state (R20) and the values between the stages of an ENCODE are transient (R23), so neither has a field. -/
structure State where
  /-- CALL[0..9] (R12). -/
  call : Vector Byte 10
  /-- CALL_LEN (R13). -/
  callLen : Byte
  /-- POWER (R15). -/
  power : Byte
  /-- LOC4[0..3] (R14). -/
  loc4 : Vector Byte 4
  /-- LOC6[0..5] (R16). -/
  loc6 : Vector Byte 6
  /-- PFX[0..2] (R17). -/
  pfx : Vector Byte 3
  /-- SFX (R18). -/
  sfx : Byte
  /-- FLAGS (R19). -/
  flags : Byte
  /-- STATUS (R21). -/
  status : Byte
  /-- SYM[0..161] (R22). -/
  sym : SymbolStream
  /-- SYNC and BASE (R7, R30, R98): fixed for a core, read and never written (log 22). -/
  platform : Platform
  /-- The model's own: the byte the most recent RD returned, `none` before the first (R43; log 3). -/
  response : Option Byte
  /-- The model's own: what the outside world does next, oldest first (log 1). -/
  inbox : List HostEvent
  /-- The model's own: the reset events taken so far, the first index of the free values of SYM (log 5). -/
  resetCount : Nat
deriving DecidableEq, Repr

/-- Why the machine stops with a fault: never. The core reports its errors in STATUS and goes on (R118), and no host
access fails (R32, R107, R108), so this type has no constructor (log 15; safe: no claim can rest on a stop). -/
inductive Fault : Type where
deriving DecidableEq, Repr

/-- Why an instruction has no meaning. -/
inductive Refusal where
  /-- Raised by an arm of `exec` whose instruction has no meaning yet. Safe: nothing can be claimed of such a step.
  Every instruction has its meaning, so no arm raises it. -/
  | notModelled (mnemonic : String)
deriving DecidableEq, Repr

namespace State

/-- A write of CALL[i]. -/
def withCall (s : State) (i : Fin 10) (b : Byte) : State := { s with call := s.call.set i b }
/-- A write of CALL_LEN. -/
def withCallLen (s : State) (b : Byte) : State := { s with callLen := b }
/-- A write of POWER. -/
def withPower (s : State) (b : Byte) : State := { s with power := b }
/-- A write of LOC4[i]. -/
def withLoc4 (s : State) (i : Fin 4) (b : Byte) : State := { s with loc4 := s.loc4.set i b }
/-- A write of LOC6[i]. -/
def withLoc6 (s : State) (i : Fin 6) (b : Byte) : State := { s with loc6 := s.loc6.set i b }
/-- A write of PFX[i]. -/
def withPfx (s : State) (i : Fin 3) (b : Byte) : State := { s with pfx := s.pfx.set i b }
/-- A write of SFX. -/
def withSfx (s : State) (b : Byte) : State := { s with sfx := b }
/-- A write of the stored FLAGS byte. -/
def withFlags (s : State) (b : Byte) : State := { s with flags := b }
/-- A write of STATUS, by the core. -/
def withStatus (s : State) (b : Byte) : State := { s with status := b }
/-- A write of the whole of SYM, by the core. -/
def withSym (s : State) (v : SymbolStream) : State := { s with sym := v }
/-- The answer to an RD. -/
def withResponse (s : State) (r : Option Byte) : State := { s with response := r }
/-- What waits at the host port. -/
def withInbox (s : State) (l : List HostEvent) : State := { s with inbox := l }

/-- A core on the platform `p` after reset number `k` (R29, R123): every operand register, FLAGS and STATUS 0x00, SYM the
free values `Config.symAtReset k` (R124; log 4), with `events` still to come from outside. -/
def afterReset (p : Platform) (k : Nat) (events : List HostEvent) : State where
  call := Vector.replicate 10 0
  callLen := 0
  power := 0
  loc4 := Vector.replicate 4 0
  loc6 := Vector.replicate 6 0
  pfx := Vector.replicate 3 0
  sfx := 0
  flags := 0
  status := 0
  sym := Vector.ofFn fun i : Fin 162 => Config.symAtReset k i
  platform := p
  response := none
  inbox := events
  resetCount := k

/-- A core on the platform `p` right after reset, with no host action waiting (R29, R123; log 1). -/
def resetOn (p : Platform) : State := afterReset p 0 []

/-- The machine right after reset, with SYNC and BASE at their defaults (R7; logs 6 and 14). -/
def reset : State := resetOn Platform.standard

end State

end Sys2Proof.Machine
end

