-- ==== Sys2Proof/Machine/Flags.lean ====
section
/-! DEFINITION. STATUS and FLAGS, field by field (10_state.md R19, R21), and the errors with their codes
(60_exceptions.md R112 to R115, R118). -/

namespace Sys2Proof.Machine

/-- The errors of an ENCODE (60_exceptions.md section 1). -/
inductive EncodeError where
  /-- Code 1 (R112). -/
  | invalidCharacter
  /-- Code 2 (R113). -/
  | invalidCallSign
  /-- Code 3, never raised (R114): the normalizer repairs the locator instead (R60). -/
  | invalidLocator
  /-- Code 4 (R115). -/
  | invalidCommand
deriving DecidableEq, Repr

/-- ERRCODE of an error (R21, R118). -/
def errCode : EncodeError → Byte
  | .invalidCharacter => 1
  | .invalidCallSign => 2
  | .invalidLocator => 3
  | .invalidCommand => 4

/-- STATUS while an ENCODE runs (R101): BUSY = 1, DONE = 0, ERR = 0, ERRCODE = 0. -/
def busyStatus : Byte := 0x04

/-- STATUS after a successful ENCODE (R101): DONE = 1, all else 0. -/
def doneStatus : Byte := 0x01

/-- STATUS after an ENCODE that raised `e` (R101, R118): `0x03 or (errcode(E) << 4)`. -/
def errorStatus (e : EncodeError) : Byte := 0x03 ||| (errCode e <<< 4)

/-- STATUS.DONE (R21). -/
def statusDone (s : State) : Bool := s.status.getLsbD 0

/-- STATUS.ERR (R21). -/
def statusErr (s : State) : Bool := s.status.getLsbD 1

/-- STATUS.BUSY (R21). -/
def statusBusy (s : State) : Bool := s.status.getLsbD 2

/-- STATUS.ERRCODE (R21). -/
def statusErrCode (s : State) : BitVec 3 := s.status.extractLsb' 4 3

/-- The STATUS byte a host reads (R21, R108): the reserved bits 7 and 3 read 0 (log 16). -/
def statusByte (s : State) : Byte := s.status &&& 0x77

/-- The FLAGS byte a host reads (R19, R108): bits 7 to 1 read 0 (log 16). -/
def flagsByte (s : State) : Byte := s.flags &&& 0x01

/-- What a host write stores in FLAGS (R19, R107): bit 0 only. -/
def flagsStored (data : Byte) : Byte := data &&& 0x01

end Sys2Proof.Machine
end

