-- ==== Sys2Proof/Machine/Operands.lean ====
section
/-! DEFINITION. The operands of an ENCODE (20_memory.md R40, 30_encoding.md R44) and the predicates on characters
(00_scope.md R8). -/

namespace Sys2Proof.Machine

/-- `isdigit` (R8). -/
def isDigit (b : Byte) : Bool := 0x30 ≤ b.toNat && b.toNat ≤ 0x39

/-- `isupper` (R8). -/
def isUpper (b : Byte) : Bool := 0x41 ≤ b.toNat && b.toNat ≤ 0x5A

/-- `islower` (R8). -/
def isLower (b : Byte) : Bool := 0x61 ≤ b.toNat && b.toNat ≤ 0x7A

/-- `upper` (R8): ASCII only, nothing else changes (D26). -/
def upper (b : Byte) : Byte := if isLower b then b - 0x20 else b

/-- The ASCII space (R8). -/
def space : Byte := 0x20

/-- The ASCII solidus "/" (R8, R78). -/
def slash : Byte := 0x2F

/-- The operands a command takes at the CMD write (R40): every operand register, whether or not the command's type reads
it (R44 says which it reads). -/
structure Snapshot where
  call : Vector Byte 10
  callLen : Byte
  power : Byte
  loc4 : Vector Byte 4
  loc6 : Vector Byte 6
  pfx : Vector Byte 3
  sfx : Byte
  flags : Byte
deriving DecidableEq, Repr

/-- The values of the operand registers as of this moment (R40, R101). -/
def snapshot (s : State) : Snapshot where
  call := s.call
  callLen := s.callLen
  power := s.power
  loc4 := s.loc4
  loc6 := s.loc6
  pfx := s.pfx
  sfx := s.sfx
  flags := s.flags

/-- FLAGS.USE_SUFFIX (R19): 1 selects SFX, 0 selects PFX. -/
def Snapshot.useSuffix (o : Snapshot) : Bool := o.flags.getLsbD 0

/-- Character `i` of the raw call sign as a stage reads it: 0x00 at or beyond CALL_LEN whatever the slot holds (R12,
R54). -/
def rawChar (call : Vector Byte 10) (callLen : Byte) (i : Nat) : Byte :=
  if i < callLen.toNat then call[i]?.getD 0 else 0

/-- The raw call sign as a string, its first CALL_LEN slots (R12, R78). -/
def rawCall (call : Vector Byte 10) (callLen : Byte) : List Byte := call.toList.take callLen.toNat

end Sys2Proof.Machine
end

