-- ==== Sys2Proof/Machine/Codec.lean ====
section
/-! DEFINITION. The Character/Field Codec (40_codec.md). -/

namespace Sys2Proof.Machine

/-- `code(ch)` (R49): the sentinel for any byte that is no digit, space or uppercase letter. It raises nothing. -/
def code (ch : Byte) : Nat :=
  if isDigit ch then ch.toNat - 0x30
  else if ch = space then 36
  else if isUpper ch then ch.toNat - 0x41 + 10
  else sentinel

/-- `encodeChar(ch)` (R51): as `code`, but it raises InvalidCharacter (D18). -/
def encodeChar (ch : Byte) : Except EncodeError Nat :=
  if ch = space then .ok 36
  else if isDigit ch then .ok (ch.toNat - 0x30)
  else if isUpper ch then .ok (ch.toNat - 0x41 + 10)
  else .error .invalidCharacter

end Sys2Proof.Machine
end

