-- ==== Sys2Proof/Machine/Hasher.lean ====
section
/-! DEFINITION. The Call-Sign Hasher (43_hasher.md), run only inside ENC3. Which accumulator takes which word, the zero
padding and the pairing of the mixing steps are the spec's own supply (R81, R82, G3; log 7). -/

namespace Sys2Proof.Machine

/-- `suffixText` (R77): "0".."9", "A".."Z", then "00".."45"; InvalidCallSign above 81 (R113). -/
def suffixText (sfx : Byte) : Except EncodeError (List Byte) :=
  let v := sfx.toNat
  if v ≤ 9 then .ok [BitVec.ofNat 8 (0x30 + v)]
  else if v ≤ 35 then .ok [BitVec.ofNat 8 (0x41 + v - 10)]
  else if v ≤ suffixMax then .ok [BitVec.ofNat 8 (0x30 + (v - 36) / 10), BitVec.ofNat 8 (0x30 + (v - 36) % 10)]
  else .error .invalidCallSign

/-- `composite` (R78), over the raw call sign and the bytes of PFX as written (D21). -/
def composite (o : Snapshot) : Except EncodeError (List Byte) :=
  let call := rawCall o.call o.callLen
  if o.useSuffix then
    match suffixText o.sfx with
    | .ok text => .ok (call ++ slash :: text)
    | .error e => .error e
  else .ok (o.pfx.toList ++ slash :: call)

/-- `rol32` (R8). -/
def rol32 (x : Word32) (k : Nat) : Word32 := (x <<< k) ||| (x >>> (32 - k))

/-- The hasher's accumulators (R25), transient. -/
structure Accumulators where
  a : Word32
  b : Word32
  c32 : Word32
deriving DecidableEq, Repr

/-- Byte `i` of the string extended with zero bytes (R81). -/
def paddedByte (comp : List Byte) (i : Nat) : Byte := comp[i]?.getD 0

/-- Input word `w`, little-endian (R37, R81). -/
def inputWord (comp : List Byte) (w : Nat) : Word32 :=
  paddedByte comp (4 * w + 3) ++ paddedByte comp (4 * w + 2) ++ paddedByte comp (4 * w + 1) ++ paddedByte comp (4 * w)

/-- The seed of all three accumulators (R80). -/
def hashSeedOf (length : Nat) : Word32 := hashSeed + BitVec.ofNat 32 length + hashInit

/-- The accumulators after the words are added (R80, R81). -/
def seeded (comp : List Byte) : Accumulators where
  a := hashSeedOf comp.length + inputWord comp 0
  b := hashSeedOf comp.length + inputWord comp 1
  c32 := hashSeedOf comp.length + inputWord comp 2

/-- One mixing step on the accumulator `x` with its partner `y` (R82): exclusive-or, then subtract the rotated partner. -/
def mixStep (x y : Word32) (k : Nat) : Word32 := (x ^^^ y) - rol32 y k

/-- The seven steps of R82 (C1: seven, not six). -/
def finalMix (v : Accumulators) : Accumulators :=
  let c1 := mixStep v.c32 v.b 14
  let a2 := mixStep v.a c1 11
  let b3 := mixStep v.b a2 25
  let c4 := mixStep c1 b3 16
  let a5 := mixStep a2 c4 4
  let b6 := mixStep b3 a5 14
  let c7 := mixStep c4 b6 24
  ⟨a5, b6, c7⟩

/-- `hash32` (R82). -/
def hash32 (comp : List Byte) : Accumulators := finalMix (seeded comp)

/-- `hash16` (R83): InvalidCallSign for a string outside 3 to 10 bytes (R79), else the low 16 bits of `c32`. -/
def hash16 (comp : List Byte) : Except EncodeError (BitVec 16) :=
  if comp.length < hashLenMin || hashLenMax < comp.length then .error .invalidCallSign
  else .ok ((hash32 comp).c32.extractLsb' 0 16)

end Sys2Proof.Machine
end

