-- ==== Sys2Proof/Machine/Normalizer.lean ====
section
/-! DEFINITION. The Message Normalizer (41_normalizer.md): the first stage of every ENCODE. It raises nothing (R63). -/

namespace Sys2Proof.Machine

/-- Step 1's test (R55), on the raw bytes: position 1 a digit and position 2 an uppercase letter. -/
def shiftsRight (call : Vector Byte 10) (callLen : Byte) : Bool :=
  isDigit (rawChar call callLen 1) && isUpper (rawChar call callLen 2)

/-- Position `i` after step 1 (R53, R55). -/
def shiftedChar (call : Vector Byte 10) (callLen : Byte) (i : Nat) : Byte :=
  if shiftsRight call callLen then
    if i = 0 then space else rawChar call callLen (i - 1)
  else rawChar call callLen i

/-- Step 2 on one character (R56): uppercase it, and make it a space unless it is a letter or a digit. -/
def cleanChar (b : Byte) : Byte := if isUpper (upper b) || isDigit (upper b) then upper b else space

/-- Position `i` after step 2, before its special case (R53, R56). -/
def cleanedChar (call : Vector Byte 10) (callLen : Byte) (i : Nat) : Byte := cleanChar (shiftedChar call callLen i)

/-- `normCall` (R53): steps 1 to 3, with step 2's special case (R57) that a space at position 4 forces position 5. -/
def normCall (call : Vector Byte 10) (callLen : Byte) : Vector Byte 6 :=
  Vector.ofFn fun i : Fin 6 =>
    if i.val = 5 && cleanedChar call callLen 4 == space then space else cleanedChar call callLen i

/-- A locator character the normalizer accepts, already uppercased (R60): a digit or a letter 'A' to 'R'. -/
def locatorCharValid (u : Byte) : Bool := isDigit u || (0x41 ≤ u.toNat && u.toNat ≤ 0x52)

/-- Step 4's test (R60): all four characters are valid. -/
def locatorAccepted (loc4 : Vector Byte 4) : Bool :=
  locatorCharValid (upper loc4[0]) && locatorCharValid (upper loc4[1]) &&
    locatorCharValid (upper loc4[2]) && locatorCharValid (upper loc4[3])

/-- `normLoc` (R60): the uppercased locator, or "AA00" whole when any character is invalid. -/
def normLoc (loc4 : Vector Byte 4) : Vector Byte 4 :=
  if locatorAccepted loc4 then Vector.ofFn fun i : Fin 4 => upper loc4[i] else fallbackLocator

/-- The normalizer's results (R53, R60, R62), transient (R23). -/
structure NormalizedMessage where
  callsign6 : Vector Byte 6
  locator4 : Vector Byte 4
  power : Byte
deriving DecidableEq, Repr

/-- Stage 1 of every ENCODE (R101, D25); the power is copied through unchanged (R62). -/
def normalize (o : Snapshot) : NormalizedMessage where
  callsign6 := normCall o.call o.callLen
  locator4 := normLoc o.loc4
  power := o.power

end Sys2Proof.Machine
end

