-- ==== Sys2Proof/Machine/Packer.lean ====
section
/-! DEFINITION. The Bit Packer (42_packer.md): the fields `n` and `m` of the three message types and the 11-byte buffer. -/

namespace Sys2Proof.Machine

/-- The positional check of R66: no sentinel, a digit at position 2, a letter or space at positions 3, 4 and 5. -/
def positionsValid (ch : Vector Byte 6) : Bool :=
  code ch[0] != sentinel && code ch[1] != sentinel && code ch[2] != sentinel &&
    code ch[3] != sentinel && code ch[4] != sentinel && code ch[5] != sentinel &&
    code ch[2] ≤ 9 && 10 ≤ code ch[3] && 10 ≤ code ch[4] && 10 ≤ code ch[5]

/-- The mixed-radix value of R65, meaningful once R66's check has passed. -/
def packNValue (ch : Vector Byte 6) : Nat :=
  ((((code ch[0] * 36 + code ch[1]) * 10 + code ch[2]) * 27 + (code ch[3] - 10)) * 27 + (code ch[4] - 10)) * 27 +
    (code ch[5] - 10)

/-- `packN` (R65, R66): the 28-bit call-sign-shaped field. -/
def packN (ch : Vector Byte 6) : Except EncodeError (BitVec 28) :=
  if positionsValid ch then .ok (BitVec.ofNat 28 (packNValue ch)) else .error .invalidCharacter

/-- `trunc_22` (R8, R74): the residue modulo 2^22, two's complement for a negative value. -/
def trunc22 (v : Int) : BitVec 22 := BitVec.ofInt 22 v

/-- The fields of a payload (R65, R74), transient (R23). -/
structure Payload where
  n : BitVec 28
  m : BitVec 22
deriving DecidableEq, Repr

/-- A letter 'A' to 'R' (R68). -/
def isFieldLetter (b : Byte) : Bool := 0x41 ≤ b.toNat && b.toNat ≤ 0x52

/-- The positional check of `locator4` (R68). -/
def locatorPackable (loc : Vector Byte 4) : Bool :=
  isFieldLetter loc[0] && isFieldLetter loc[1] && isDigit loc[2] && isDigit loc[3]

/-- `locVal` (R69), meaningful once R68's check has passed. -/
def locVal (loc : Vector Byte 4) : Nat :=
  (179 - 10 * (loc[0].toNat - 0x41) - (loc[2].toNat - 0x30)) * 180 + 10 * (loc[1].toNat - 0x41) + (loc[3].toNat - 0x30)

/-- `packType1` (R70): `n` first, then the check of the locator. -/
def packType1 (msg : NormalizedMessage) : Except EncodeError Payload :=
  match packN msg.callsign6 with
  | .error e => .error e
  | .ok n =>
    if locatorPackable msg.locator4 then
      .ok ⟨n, trunc22 ((locVal msg.locator4 : Int) * 128 + msg.power.toNat + 64)⟩
    else .error .invalidCharacter

/-- `packType2Suffix` (R71). -/
def packType2Suffix (msg : NormalizedMessage) (sfx : Byte) : Except EncodeError Payload :=
  match packN msg.callsign6 with
  | .error e => .error e
  | .ok n =>
    if suffixMax < sfx.toNat then .error .invalidCallSign
    else .ok ⟨n, trunc22 (((suffixBase : Int) + sfx.toNat) * 128 + msg.power.toNat + 66)⟩

/-- The base-37 value `g` of PFX, its first character most significant (R72, D22). -/
def pfxValue (pfx : Vector Byte 3) : Except EncodeError Nat :=
  match encodeChar pfx[0] with
  | .error e => .error e
  | .ok e0 =>
    match encodeChar pfx[1] with
    | .error e => .error e
    | .ok e1 =>
      match encodeChar pfx[2] with
      | .error e => .error e
      | .ok e2 => .ok ((e0 * 37 + e1) * 37 + e2)

/-- The field `m` of R72 before truncation: above 32767 the value drops 32768 and takes the offset +66, else +65. -/
def pfxField (g : Nat) (power : Byte) : Int :=
  if pfxSplit < g then ((g : Int) - 32768) * 128 + power.toNat + 66 else (g : Int) * 128 + power.toNat + 65

/-- `packType2Prefix` (R72). -/
def packType2Pfx (msg : NormalizedMessage) (pfx : Vector Byte 3) : Except EncodeError Payload :=
  match packN msg.callsign6 with
  | .error e => .error e
  | .ok n =>
    match pfxValue pfx with
    | .error e => .error e
    | .ok g => .ok ⟨n, trunc22 (pfxField g msg.power)⟩

/-- The characters of LOC6 in the order `[1,2,3,4,5,0]` (R73). -/
def reorderLoc6 (loc6 : Vector Byte 6) : Vector Byte 6 :=
  #v[loc6[1], loc6[2], loc6[3], loc6[4], loc6[5], loc6[0]]

/-- The field `m` of R73 before truncation; the one signed value of the core (R109). -/
def hashField (h : BitVec 16) (power : Byte) : Int := 128 * (h.toNat : Int) - power.toNat - 1 + 64

/-- `packType3` (R73): LOC6 as written, then the hash of the composite string. -/
def packType3 (msg : NormalizedMessage) (o : Snapshot) : Except EncodeError Payload :=
  match packN (reorderLoc6 o.loc6) with
  | .error e => .error e
  | .ok n =>
    match composite o with
    | .error e => .error e
    | .ok comp =>
      match hash16 comp with
      | .error e => .error e
      | .ok h => .ok ⟨n, trunc22 (hashField h msg.power)⟩

/-- Stage 2 of an ENCODE, from the normalizer's results and the snapshot (R101). -/
abbrev Packer := NormalizedMessage → Snapshot → Except EncodeError Payload

/-- ENC1's packer (R104). -/
def packEnc1 : Packer := fun msg _ => packType1 msg

/-- ENC2's packer (R105): FLAGS.USE_SUFFIX chooses SFX or PFX. -/
def packEnc2 : Packer := fun msg o =>
  if o.useSuffix then packType2Suffix msg o.sfx else packType2Pfx msg o.pfx

/-- ENC3's packer (R106). -/
def packEnc3 : Packer := fun msg o => packType3 msg o

/-- `serialize` (R75): 28 bits of `n`, 22 bits of `m`, 38 zero bits, most significant bit first from `c[0]`. -/
def serialize (p : Payload) : Vector Byte 11 :=
  #v[p.n.extractLsb' 20 8, p.n.extractLsb' 12 8, p.n.extractLsb' 4 8, p.n.extractLsb' 0 4 ++ p.m.extractLsb' 18 4,
    p.m.extractLsb' 10 8, p.m.extractLsb' 2 8, p.m.extractLsb' 0 2 ++ 0#6, 0, 0, 0, 0]

end Sys2Proof.Machine
end

