-- ==== Sys2Proof/Machine/SyncMerger.lean ====
section
/-! DEFINITION. The Sync Merger (46_sync_merger.md): symbol = sync + 2 · parity, for any synchronization vector. -/

namespace Sys2Proof.Machine

/-- One symbol (R97): bit 0 the sync bit, bit 1 the parity bit. -/
def symbol (syncBit parityBit : Bool) : BitVec 2 := BitVec.ofNat 2 (syncBit.toNat + 2 * parityBit.toNat)

/-- `syncMerge` (R97), for the synchronization vector `sync` (R98: a parameter). -/
def syncMerge (sync : SyncVector) (d : Vector Bool 162) : SymbolStream :=
  Vector.ofFn fun i : Fin 162 => symbol sync[i] d[i]

end Sys2Proof.Machine
end

