-- ==== Sys2Proof/Machine/Ops.lean ====
section
/-! DEFINITION. The shared operations: the ENCODE frame (47_encode_command.md R101), taking an error and leaving it
(60_exceptions.md R118, R119), the reads and writes of the register window (R107, R108), the reset event (R123), and
what the core takes from the host port. -/

namespace Sys2Proof.Machine

/-- Taking an error (R101, R118): STATUS reports it, and SYM, every operand register and all else stay as they are. No
state is saved, no mode changes and control goes nowhere: there is no handler and no vector. -/
def reportError (e : EncodeError) (s : State) : State := s.withStatus (errorStatus e)

/-- What leaves the error state (R119): the start of the next ENCODE clears DONE, ERR and ERRCODE and sets BUSY (R21,
R101). There is no return-from-trap and nothing to restore. -/
def startEncode (s : State) : State := s.withStatus busyStatus

/-- The end of a successful ENCODE (R97, R101): all 162 elements of SYM at once, and STATUS. -/
def finishEncode (v : SymbolStream) (s : State) : State := (s.withSym v).withStatus doneStatus

/-- Stages 3 to 5, every type (R101): the buffer, its 162 parity bits, interleaved and merged with `sync`. -/
def symbolsOf (sync : SyncVector) (p : Payload) : SymbolStream :=
  syncMerge sync (interleave (convEncode (serialize p)))

/-- The stages of an ENCODE with a valid command word, from its snapshot (R101): the capacity check (R13), the normalizer
for every type, the packer of the type, then stages 3 to 5; or the first error met (R117). -/
def encodeSymbols (sync : SyncVector) (pack : Packer) (o : Snapshot) : Except EncodeError SymbolStream :=
  if callMax < o.callLen.toNat then .error .invalidCallSign
  else
    match pack (normalize o) o with
    | .ok p => .ok (symbolsOf sync p)
    | .error e => .error e

/-- The ENCODE frame with a valid command word (R101), one indivisible step (R102), with the core's own SYNC (R98). -/
def runEncode (pack : Packer) (s : State) : State :=
  match encodeSymbols s.platform.sync pack (snapshot s) with
  | .ok v => finishEncode v (startEncode s)
  | .error e => reportError e (startEncode s)

/-- Stage 2 by TYPE (R101). -/
def packerOf : MessageType → Packer
  | .type1 => packEnc1
  | .type2 => packEnc2
  | .type3 => packEnc3

/-- `ENCODE(w)` (R101) for any byte written to CMD: a reserved word reports InvalidCommand before any operand is looked
at (R46, R115). -/
def encodeCommand (w : Byte) (s : State) : State :=
  match messageTypeOf w with
  | some t => runEncode (packerOf t) s
  | none => reportError .invalidCommand (startEncode s)

/-- The busy rule (R107, R127): while STATUS.BUSY is 1 a write changes nothing and starts nothing. -/
def unlessBusy (s : State) (t : State) : State := if statusBusy s then s else t

/-- `MemRead` of one location (R108). CMD and reserved locations read 0; a symbol reads in bits 1:0. -/
def readLocation (s : State) : Location → Byte
  | .call i => s.call[i]
  | .callLen => s.callLen
  | .power => s.power
  | .loc4 i => s.loc4[i]
  | .loc6 i => s.loc6[i]
  | .pfx i => s.pfx[i]
  | .sfx => s.sfx
  | .flags => flagsByte s
  | .cmd => 0
  | .status => statusByte s
  | .sym i => s.sym[i].setWidth 8
  | .reserved => 0

/-- The byte at a window offset (R108). -/
def windowRead (s : State) (offset : Byte) : Byte := readLocation s (locationAt offset)

/-- `MemWrite` of one location while not busy (R107): every bit is stored in an operand register, bit 0 in FLAGS, a write
of CMD runs ENCODE, and STATUS, SYM and reserved locations ignore it (R32). -/
def writeLocation (s : State) (data : Byte) : Location → State
  | .call i => s.withCall i data
  | .callLen => s.withCallLen data
  | .power => s.withPower data
  | .loc4 i => s.withLoc4 i data
  | .loc6 i => s.withLoc6 i data
  | .pfx i => s.withPfx i data
  | .sfx => s.withSfx data
  | .flags => s.withFlags (flagsStored data)
  | .cmd => encodeCommand data s
  | .status => s
  | .sym _ => s
  | .reserved => s

/-- The write of a byte at a window offset (R107). -/
def windowWrite (s : State) (offset data : Byte) : State :=
  unlessBusy s (writeLocation s data (locationAt offset))

/-- The reset event (R123): every register at its reset value, whatever the state was; SYNC and BASE stay what the core
was built with (log 22), and what the outside world does next is not the core's and stays (log 13). -/
def applyReset (s : State) : State := State.afterReset s.platform (s.resetCount + 1) s.inbox

/-- A reserved word written to CMD (R46): the ENCODE frame that ends with InvalidCommand, unless busy. -/
def reservedCommand (w : Byte) (s : State) : State := unlessBusy s (encodeCommand w s)

/-- What the core takes from the host port (log 1). -/
inductive Fetched where
  /-- Nothing waits. -/
  | idle
  /-- The reset event comes next. -/
  | reset (s : State)
  /-- The instruction that comes next, and the state without it. -/
  | run (i : Instr) (s : State)
  /-- A reserved command word comes next (R46). -/
  | reserved (w : Byte) (s : State)
deriving DecidableEq, Repr

/-- Take the oldest event (R39) and decode it. -/
def fetch (s : State) : Fetched :=
  match s.inbox with
  | [] => .idle
  | .reset :: rest => .reset (s.withInbox rest)
  | .word (.cmd w) :: rest =>
    match decodeCommand w with
    | .ok i => .run i (s.withInbox rest)
    | .error _ => .reserved w (s.withInbox rest)
  | .word (.host w) :: rest => .run (decodeHost w) (s.withInbox rest)

end Sys2Proof.Machine
end

