-- ==== Sys2Proof/Machine/Commands.lean ====
section
/-! DEFINITION. The meanings of the three commands (47_encode_command.md R104, R105, R106). A command word is a byte
written to CMD, so the busy rule holds for it (R127; log 10). -/

namespace Sys2Proof.Machine

/-- ENC1 (R104): message type 1. -/
def execEnc1 (s : State) : Host.Outcome State Fault Refusal :=
  .next (unlessBusy s (runEncode packEnc1 s))

/-- ENC2 (R105): message type 2. -/
def execEnc2 (s : State) : Host.Outcome State Fault Refusal :=
  .next (unlessBusy s (runEncode packEnc2 s))

/-- ENC3 (R106): message type 3. -/
def execEnc3 (s : State) : Host.Outcome State Fault Refusal :=
  .next (unlessBusy s (runEncode packEnc3 s))

end Sys2Proof.Machine
end

