-- ==== Sys2Proof/Machine/HostPort.lean ====
section
/-! DEFINITION. The meanings of the host transactions (47_encode_command.md R107, R108). -/

namespace Sys2Proof.Machine

/-- WR (R107). -/
def execWr (addr data : Byte) (s : State) : Host.Outcome State Fault Refusal :=
  .next (windowWrite s addr data)

/-- RD (R108): the byte read is the response (R43; log 3); no register changes. -/
def execRd (addr : Byte) (s : State) : Host.Outcome State Fault Refusal :=
  .next (s.withResponse (some (windowRead s addr)))

end Sys2Proof.Machine
end

