-- ==== Sys2Proof/Machine/Step.lean ====
section
/-! DEFINITION. One step of the machine: the next thing the outside world does, done whole (R39, R102). -/

namespace Sys2Proof.Machine

/-- One step: an idle core does nothing (log 2); a reset event resets (R123); an instruction runs; a reserved command
word runs the frame that reports it (R46). -/
def step (s : State) : Host.Outcome State Fault Refusal :=
  match fetch s with
  | .idle => .next s
  | .reset s' => .next (applyReset s')
  | .run i s' => exec i s'
  | .reserved w s' => .next (reservedCommand w s')

/-- The word of a table row's bits: 8 bits are the CMD format, more are the HOST format (R42, R43). -/
def tableWord (nbits w : Nat) : HostWord :=
  if nbits ≤ 8 then .cmd (BitVec.ofNat 8 w) else .host (BitVec.ofNat 17 w)

/-- Place a word where the next step takes it: at the head of what waits at the host port (log 1). -/
def State.withFetchWord (s : State) (nbits w : Nat) : State :=
  s.withInbox (.word (tableWord nbits w) :: s.inbox)

end Sys2Proof.Machine
end

