-- ==== Sys2Proof/Machine/Script.lean ====
section
/-! DEFINITION. Expanding script actions and pseudo-operations into host transactions (30_encoding.md R47, R48). -/

namespace Sys2Proof

/-- The ASCII code of a character of a script text (R47). -/
def charCode (c : Char) : Byte := BitVec.ofNat 8 c.toNat

/-- The byte of a register's element `i` (R47). -/
def elementOffset (r : RegName) (i : Nat) : Byte := BitVec.ofNat 8 (r.offset + i)

/-- One WR per character, ascending, from element `i` (R48). -/
def writeText (r : RegName) (i : Nat) : List Char → List Instr
  | [] => []
  | c :: rest => .wr (elementOffset r i) (charCode c) :: writeText r (i + 1) rest

/-- `START k` (R48): a write of `k` to CMD. -/
def startInstr (k : Nat) : Instr := .wr (elementOffset .cmd 0) (BitVec.ofNat 8 k)

/-- The transactions of a script line (R47, R48). WAIT is one `RD STATUS`, as R48 says for the atomic model (log 11). -/
def ScriptAction.expand : ScriptAction → List Instr
  | .wr reg value => [.wr (BitVec.ofNat 8 reg.toOffset) (BitVec.ofNat 8 value)]
  | .rd reg _ => [.rd (BitVec.ofNat 8 reg.toOffset)]
  | .wrs reg text => writeText reg 0 text
  | .setcall text => writeText .call 0 text ++ [.wr (elementOffset .callLen 0) (BitVec.ofNat 8 text.length)]
  | .start k => [startInstr k]
  | .enc1 => [startInstr 1]
  | .enc2 => [startInstr 2]
  | .enc3 => [startInstr 3]
  | .wait => [.rd (elementOffset .status 0)]
  | .rdsym => (List.range 162).map fun i => .rd (elementOffset .sym i)

end Sys2Proof
end

