-- ==== Sys2Proof/Safety.lean ====
section
/-! DEFINITION. The terms claims use: the states the core can be in, and when SYM is meaningful. -/

namespace Sys2Proof.Safety

open Sys2Proof.Machine

/-- The STATUS values a host can ever read in the atomic model (R21, R102): 0x04 is never observed. -/
def legalStatus (b : Byte) : Bool := b == 0x00 || b == 0x01 || b == 0x13 || b == 0x23 || b == 0x43

/-- The states the core can be in between transactions: a STATUS value of R21's list, and the reserved bits of FLAGS
zero (R19). -/
abbrev Legal (s : State) : Prop := legalStatus s.status = true ∧ s.flags.extractLsb' 1 7 = 0

/-- SYM holds a valid stream exactly then (R22, R129). -/
def symValid (s : State) : Bool := statusByte s == 0x01

/-- Two states agree in every register of the core; the fields of the model's own may differ. -/
abbrev sameRegisters (s t : State) : Prop :=
  t.call = s.call ∧ t.callLen = s.callLen ∧ t.power = s.power ∧ t.loc4 = s.loc4 ∧ t.loc6 = s.loc6 ∧ t.pfx = s.pfx ∧
    t.sfx = s.sfx ∧ t.flags = s.flags ∧ t.status = s.status ∧ t.sym = s.sym

/-- Two states agree in every operand register (R12 to R19). -/
abbrev sameOperands (s t : State) : Prop := snapshot t = snapshot s

/-- Two states agree in SYNC and BASE and in the fields of the model's own. -/
abbrev samePort (s t : State) : Prop :=
  t.platform = s.platform ∧ t.response = s.response ∧ t.inbox = s.inbox ∧ t.resetCount = s.resetCount

/-- The core built on the platform `p`: the one machine, with SYNC and BASE at the values of `p` (R7). `Sys2Proof.core` is
the one with their defaults. -/
def coreOn (p : Platform) : Host.Core where
  State := State
  Fault := Fault
  Refusal := Refusal
  step := step
  reset := State.resetOn p

end Sys2Proof.Safety
end

