-- ==== Sys2Proof/Certificates/Slice0/Obligations.lean ====
section
/-! DEFINITION. The statements for the provers. The helpers under Sys2Proof.Spec are the spec's own closed forms, written
again here apart from the model's definitions. -/

namespace Sys2Proof.Spec

open Sys2Proof.Machine

/-- R66: the six characters pass the positional check. -/
abbrev Packs (ch : Vector Byte 6) : Prop :=
  (∀ i : Fin 6, code ch[i] ≠ 255) ∧ code ch[2] ≤ 9 ∧ 10 ≤ code ch[3] ∧ 10 ≤ code ch[4] ∧ 10 ≤ code ch[5]

/-- R65: `n` in closed form. -/
def nOf (ch : Vector Byte 6) : Nat :=
  ((((code ch[0] * 36 + code ch[1]) * 10 + code ch[2]) * 27 + (code ch[3] - 10)) * 27 + (code ch[4] - 10)) * 27
    + (code ch[5] - 10)

/-- R68: letters 'A' to 'R' at positions 0 and 1, digits at positions 2 and 3. -/
abbrev LocatorPacks (loc : Vector Byte 4) : Prop :=
  (0x41 ≤ loc[0].toNat ∧ loc[0].toNat ≤ 0x52) ∧ (0x41 ≤ loc[1].toNat ∧ loc[1].toNat ≤ 0x52) ∧
    (0x30 ≤ loc[2].toNat ∧ loc[2].toNat ≤ 0x39) ∧ (0x30 ≤ loc[3].toNat ∧ loc[3].toNat ≤ 0x39)

/-- R69: `locVal` over the integers. -/
def locOf (loc : Vector Byte 4) : Int :=
  (179 - 10 * ((loc[0].toNat : Int) - 0x41) - ((loc[2].toNat : Int) - 0x30)) * 180
    + 10 * ((loc[1].toNat : Int) - 0x41) + ((loc[3].toNat : Int) - 0x30)

/-- R72: the base-37 value of PFX, each character by `code`. -/
def gOf (pfx : Vector Byte 3) : Int := (code pfx[0] * 37 + code pfx[1]) * 37 + code pfx[2]

/-- R72: every character of PFX is a space, a digit or an uppercase letter. -/
abbrev PfxPacks (pfx : Vector Byte 3) : Prop := ∀ i : Fin 3, code pfx[i] ≠ 255

/-- R73: LOC6 in the order `[1,2,3,4,5,0]`. -/
def loc6Chars (loc6 : Vector Byte 6) : Vector Byte 6 :=
  Vector.ofFn fun i : Fin 6 => loc6[(i.val + 1) % 6]'(Nat.mod_lt _ (by decide))

/-- R77: the text of a suffix code 0 to 81, as character codes. -/
def textOf (v : Nat) : List Byte :=
  if v < 10 then [BitVec.ofNat 8 (48 + v)]
  else if v < 36 then [BitVec.ofNat 8 (55 + v)]
  else [BitVec.ofNat 8 (48 + (v - 36) / 10), BitVec.ofNat 8 (48 + (v - 36) % 10)]

/-- R78: the composite string of a state whose suffix code, where it counts, is 0 to 81. -/
def compOf (s : State) : List Byte :=
  if s.flags.getLsbD 0 then s.call.toList.take s.callLen.toNat ++ [0x2F] ++ textOf s.sfx.toNat
  else [s.pfx[0], s.pfx[1], s.pfx[2], 0x2F] ++ s.call.toList.take s.callLen.toNat

/-- R78: the length of the composite string, from CALL_LEN and SFX. -/
def compLength (o : Snapshot) : Nat :=
  if o.flags.getLsbD 0 then o.callLen.toNat + (if o.sfx.toNat ≤ 35 then 2 else 3) else o.callLen.toNat + 4

/-- R83: the hash of a string. -/
def hOf (comp : List Byte) : Int := ((hash32 comp).c32.toNat % 65536 : Nat)

/-- R101: the stream of a payload, with the synchronization vector the core of `s` was built with (R98). -/
def stream (s : State) (n : Nat) (m : Int) : SymbolStream :=
  symbolsOf s.platform.sync ⟨BitVec.ofNat 28 n, BitVec.ofInt 22 m⟩

/-- R37, R81: input word `w` as a number, byte `4w` lowest, and 0 for a byte past the end of the string. -/
def wordAt (comp : List Byte) (w : Nat) : Nat :=
  let k : Nat → Nat := fun i => if h : i < comp.length then comp[i].toNat else 0
  k (4 * w) + 256 * k (4 * w + 1) + 65536 * k (4 * w + 2) + 16777216 * k (4 * w + 3)

/-- R80, R81: the accumulators before the mixing, `trunc_32` written as a residue. -/
def seededNat (comp : List Byte) : Nat × Nat × Nat :=
  let seed := 0xDEADBEEF + comp.length + 146
  ((seed + wordAt comp 0) % 2 ^ 32, (seed + wordAt comp 1) % 2 ^ 32, (seed + wordAt comp 2) % 2 ^ 32)

/-- R8: `rol32` on numbers: the low bits move up by `k` and the top `k` bits come in below. -/
def rolNat (x k : Nat) : Nat := x % 2 ^ (32 - k) * 2 ^ k + x / 2 ^ (32 - k)

/-- R82: one step: `x = x xor y; x = trunc_32(x - rol32(y, k))`. -/
def mixNat (x y k : Nat) : Nat := ((x ^^^ y) + 2 ^ 32 - rolNat y k) % 2 ^ 32

/-- R82: the seven steps in the order printed, on `(a, b, c32)`. -/
def mixedNat : Nat × Nat × Nat → Nat × Nat × Nat
  | (a, b, c32) =>
    let c32 := mixNat c32 b 14
    let a := mixNat a c32 11
    let b := mixNat b a 25
    let c32 := mixNat c32 b 16
    let a := mixNat a c32 4
    let b := mixNat b a 14
    let c32 := mixNat c32 b 24
    (a, b, c32)

/-- R117: what STATUS reads after the byte `w` is written to CMD, the first condition that applies deciding. -/
def statusAfter (w : Byte) (o : Snapshot) : Byte :=
  if w ≠ 0x01 ∧ w ≠ 0x02 ∧ w ≠ 0x03 then 0x43
  else if 10 < o.callLen.toNat then 0x23
  else if ¬ Packs (if w = 0x03 then loc6Chars o.loc6 else normCall o.call o.callLen) then 0x13
  else if w = 0x01 then (if LocatorPacks (normLoc o.loc4) then 0x01 else 0x13)
  else if w = 0x02 then
    if o.flags.getLsbD 0 then (if 81 < o.sfx.toNat then 0x23 else 0x01)
    else (if PfxPacks o.pfx then 0x01 else 0x13)
  else if o.flags.getLsbD 0 ∧ 81 < o.sfx.toNat then 0x23
  else if compLength o < 3 ∨ 10 < compLength o then 0x23
  else 0x01

/-- The three commands. -/
abbrev IsCommand (i : Instr) : Prop := i = .enc1 ∨ i = .enc2 ∨ i = .enc3

/-- A six-character result of the normalizer as a raw call sign of length 6 (R64). -/
def asRaw (v : Vector Byte 6) : Vector Byte 10 := Vector.ofFn fun i : Fin 10 => v[i.val]?.getD 0

/-- Several instructions one after the other, while each answers a next state. -/
def runAll : List Instr → State → Option State
  | [], s => some s
  | i :: rest, s =>
    match exec i s with
    | .next t => runAll rest t
    | _ => none

/-- The exclusive-or over the taps of a mask of the input bits that entered `i` steps before step `k` (R87). -/
def tapParity (mask : Word32) (buf : Vector Byte 11) (k : Nat) : Bool :=
  (List.range 32).countP (fun i => i ≤ k && mask.getLsbD i && inputBit buf (k - i)) % 2 == 1

end Sys2Proof.Spec

open Sys2Proof Sys2Proof.Machine Sys2Proof.Safety

/-! ## Encoding -/

/-- Decoding an encoded instruction gives it back, for every operand, as a word and as a packet of bytes (R43, R45; the
packet layout is the model's, log 9). -/
def Obligations.DecodeOfEncodeIsTheInstruction : Prop :=
  ∀ i : Instr, i.wellFormed = true → decodeWord (encode i) = .ok i ∧ decodeBytes (encodeBytes i) = .ok i

/-- A word that decodes is the encoding of its instruction, but for the DATA field that RD ignores (R43). -/
def Obligations.EncodeOfDecodeKeepsTheWord : Prop :=
  ∀ (w : HostWord) (i : Instr), decodeWord w = .ok i →
    encode i = w ∨ ∃ (a x : Byte), i = .rd a ∧ w = .host (0#1 ++ a ++ x)

/-- Words written out from R42, R43, R45 and the examples of R48, R107, R108 and R46 (sanity). -/
def Obligations.WordsOfTheSpecDecode : Prop :=
  decodeWord (.cmd 0b00000001) = .ok .enc1 ∧ decodeWord (.cmd 0b00000010) = .ok .enc2 ∧
  decodeWord (.cmd 0b00000011) = .ok .enc3 ∧ decodeWord (.host 0b10000101100100101) = .ok (.wr 0x0B 37) ∧
  decodeWord (.host 0x01C00) = .ok (.rd 0x1C) ∧ decodeWord (.cmd 0x00) = .error (.reservedCommand 0x00) ∧
  decodeWord (.cmd 0x05) = .error (.reservedCommand 0x05) ∧ decodeWord (.cmd 0x83) = .error (.reservedCommand 0x83)

/-- R45, R46: three command words are defined, each other one is reserved and rejected by name. -/
def Obligations.CommandWordsAreOneTwoThree : Prop :=
  ∀ w : Byte, decodeCommand w =
    if w = 0x01 then .ok .enc1 else if w = 0x02 then .ok .enc2 else if w = 0x03 then .ok .enc3
    else .error (.reservedCommand w)

/-- A step runs the decoded instruction on the state without it; a reserved command word runs the frame that reports
InvalidCommand (R46), unless busy. The queue at the host port is the model's (log 1). -/
def Obligations.StepRunsTheDecodedInstruction : Prop :=
  ∀ (s : State) (w : HostWord) (rest : List HostEvent), s.inbox = .word w :: rest →
    (∀ i, i.wellFormed = true → decodeWord w = .ok i → step s = exec i (s.withInbox rest)) ∧
    (∀ e, decodeWord w = .error e →
      step s = .next (if statusBusy s then s.withInbox rest else { s with inbox := rest, status := 0x43 }))

/-- Whatever word the decoder reads an instruction from, the step after it is placed runs that instruction (log 1). -/
def Obligations.PlacedWordRunsNext : Prop :=
  ∀ (s : State) (nbits w : Nat) (i : Instr), decodeTableWord nbits w = some i →
    step (s.withFetchWord nbits w) = exec i s

/-- R101, R46: a byte written to CMD runs the command it encodes, and any other byte reports InvalidCommand. -/
def Obligations.CommandWriteRunsTheCommand : Prop :=
  ∀ (s : State) (w : Byte), exec (.wr 0x1B w) s =
    match decodeCommand w with
    | .ok i => exec i s
    | .error _ => .next (if statusBusy s then s else { s with status := 0x43 })

/-! ## Reset -/

/-- R29: every register with a reset value holds it. (Of SYM nothing is stated: its contents are free values, log 4. That
no byte has been answered, nothing waits and no reset is counted is the model's choice, logs 3, 1 and 5.) State.reset has
SYNC and BASE at the spec's defaults (R7; logs 6 and 14), and a core on any other platform is the same but for them. -/
def Obligations.ResetRegisterValues : Prop :=
  State.reset.call = Vector.replicate 10 0x00 ∧ State.reset.callLen = 0 ∧ State.reset.power = 0 ∧
  State.reset.loc4 = Vector.replicate 4 0x00 ∧ State.reset.loc6 = Vector.replicate 6 0x00 ∧
  State.reset.pfx = Vector.replicate 3 0x00 ∧ State.reset.sfx = 0 ∧ State.reset.flags = 0x00 ∧
  State.reset.status = 0x00 ∧
  (State.reset.response = none ∧ State.reset.inbox = [] ∧ State.reset.resetCount = 0) ∧
  State.reset.platform = ⟨syncVector, 0⟩ ∧
  ∀ p : Platform, State.resetOn p = { State.reset with platform := p }

/-- R123: a reset event puts every register with a reset value at it, whatever the state was. What still waits outside
stays, no byte has been answered yet, and the reset is counted: the model's choice (logs 3, 5 and 13). SYNC and BASE stay
what the core was built with (log 22). -/
def Obligations.ResetEventResets : Prop :=
  ∀ (s : State) (rest : List HostEvent), s.inbox = .reset :: rest → ∃ t, step s = .next t ∧
    snapshot t = snapshot State.reset ∧ t.status = 0x00 ∧ t.response = none ∧ t.inbox = rest ∧
    t.resetCount = s.resetCount + 1 ∧ t.platform = s.platform

/-- R125: the first command after reset, with no operand write, fails with InvalidCharacter, for each of the three. -/
def Obligations.FirstCommandAfterResetFails : Prop :=
  ∀ (p : Platform) (k : Nat) (events : List HostEvent),
    normCall (State.afterReset p k events).call (State.afterReset p k events).callLen = Vector.replicate 6 0x20 ∧
    (∀ i : Fin 6, code (reorderLoc6 (State.afterReset p k events).loc6)[i] = 255) ∧
    ∀ w : Byte, w = 0x01 ∨ w = 0x02 ∨ w = 0x03 →
      exec (.wr 0x1B w) (State.afterReset p k events) = .next { State.afterReset p k events with status := 0x13 }

/-! ## Invariants and frames of the whole machine -/

/-- The machine after any reset is in a legal state (R19, R21, R29). -/
def Obligations.ResetStatesAreLegal : Prop :=
  Legal State.reset ∧ ∀ (p : Platform) (k : Nat) (events : List HostEvent), Legal (State.afterReset p k events)

/-- R19, R21, R102: from every legal state a step leads to a legal state: STATUS holds one of 0x00, 0x01, 0x13, 0x23,
0x43, so 0x04 is never observed, and the reserved bits of FLAGS stay 0. -/
def Obligations.EveryStepKeepsStatesLegal : Prop :=
  ∀ s t : State, Legal s → step s = .next t → Legal t

/-- No host action stops the machine: every step of every state answers a next state (R32, R107, R108, R118). -/
def Obligations.EveryStepCompletes : Prop :=
  ∀ s : State, ∃ t, step s = .next t

/-- Whole-machine frame of a step. SYM changes only by a successful command, the one the step took from the host port,
whose stream it then holds, or by a reset event (R22); an operand register only by a WR at an offset up to 0x1A or by a reset event (R11, R101); STATUS only by a
command or a reserved command word or a reset event (R21, R32). -/
def Obligations.RegistersChangeOnlyByTheirOwner : Prop :=
  ∀ s t : State, step s = .next t → s.inbox.head? ≠ some .reset →
    (t.sym = s.sym ∨ t.status = 0x01 ∧ ∃ w b k, s.inbox.head? = some (.word w) ∧
      (w = .cmd b ∨ decodeWord w = .ok (.wr 0x1B b)) ∧ messageTypeOf b = some k ∧
      encodeSymbols s.platform.sync (packerOf k) (snapshot s) = .ok t.sym) ∧
    (snapshot t = snapshot s ∨
      ∃ w a d, s.inbox.head? = some (.word w) ∧ decodeWord w = .ok (.wr a d) ∧ a.toNat ≤ 0x1A) ∧
    (t.status = s.status ∨ ∃ w, s.inbox.head? = some (.word w) ∧
      ((∃ b, w = .cmd b) ∨ ∃ d, decodeWord w = .ok (.wr 0x1B d)))

/-- R7, R98, R99: SYNC and BASE are what the core was built with after every step, and whatever changes SYM but a reset
event leaves bit 0 of each of the 162 symbols at that one SYNC, the same for every message and every message type. -/
def Obligations.SyncIsTheSameForEveryMessage : Prop :=
  ∀ s t : State, step s = .next t →
    t.platform = s.platform ∧
    (t.sym = s.sym ∨ s.inbox.head? = some .reset ∨
      ∀ (i : Nat) (h : i < 162), t.sym[i].toNat % 2 = s.platform.sync[i].toNat)

/-- R30, U19: BASE places the window and nothing more. The addresses of the window are BASE and the 255 after it, one for
each offset; and cores that differ in BASE alone run every step alike. -/
def Obligations.BaseOnlyPlacesTheWindow : Prop :=
  (∀ (base address : Nat) (o : Byte), offsetAt base address = some o ↔ address = hostAddress base o) ∧
  (∀ (base address : Nat), offsetAt base address = none ↔ address < base ∨ base + 255 < address) ∧
  (∀ (base address : Nat) (o d : Byte), address = base + o.toNat →
    readAt base address = some (.rd o) ∧ writeAt base address d = some (.wr o d)) ∧
  ∀ (s t : State) (b : Nat), step s = .next t →
    step { s with platform := ⟨s.platform.sync, b⟩ } = .next { t with platform := ⟨t.platform.sync, b⟩ }

/-- The frame of the three commands: no operand register, neither SYNC nor BASE, no field of the model's own, and no byte of the window outside
STATUS and SYM changes; and SYM is unchanged whenever STATUS.ERR reads 1 afterwards (R101, R118). -/
def Obligations.CommandsChangeOnlySymAndStatus : Prop :=
  ∀ (i : Instr) (s t : State), Spec.IsCommand i → exec i s = .next t →
    sameOperands s t ∧ samePort s t ∧
    (∀ a : Byte, a ≠ 0x1C → (a.toNat < 0x20 ∨ 0xC1 < a.toNat) → windowRead t a = windowRead s a) ∧
    (statusErr t = true → t.sym = s.sym)

/-! ## Host transactions -/

/-- R107: a write of an operand register at offsets 0x00 to 0x19 stores all eight bits, is read back, and changes no
other byte of the window and nothing else. -/
def Obligations.OperandWriteStoresTheByte : Prop :=
  ∀ (s : State) (a d : Byte), statusBusy s = false → a.toNat ≤ 0x19 → ∃ t, exec (.wr a d) s = .next t ∧
    windowRead t a = d ∧ (∀ b : Byte, b ≠ a → windowRead t b = windowRead s b) ∧
    t.flags = s.flags ∧ t.status = s.status ∧ t.sym = s.sym ∧ samePort s t

/-- R19: FLAGS keeps bit 0 of what is written, its bits 7 to 1 read as 0, and the write changes no other register. -/
def Obligations.FlagsWriteKeepsBitZero : Prop :=
  (∀ (s : State) (d : Byte), statusBusy s = false →
    exec (.wr 0x1A d) s = .next { s with flags := if d.getLsbD 0 then 0x01 else 0x00 }) ∧
  ∀ (s : State) (k : Nat), 1 ≤ k → (windowRead s 0x1A).getLsbD k = false

/-- R32: a read of a reserved offset gives 0x00; a write to a reserved offset, to STATUS or to SYM changes nothing, and
the reserved bits of FLAGS ignore what is written. -/
def Obligations.ReservedAndReadOnlyLocations : Prop :=
  (∀ (s : State) (a : Byte), (0x1D ≤ a.toNat ∧ a.toNat ≤ 0x1F) ∨ 0xC2 ≤ a.toNat →
    exec (.rd a) s = .next { s with response := some 0x00 } ∧ ∀ d, exec (.wr a d) s = .next s) ∧
  (∀ (s : State) (a d : Byte), a.toNat = 0x1C ∨ (0x20 ≤ a.toNat ∧ a.toNat ≤ 0xC1) → exec (.wr a d) s = .next s) ∧
  (∀ (s : State) (d e : Byte), d.getLsbD 0 = e.getLsbD 0 → exec (.wr 0x1A d) s = exec (.wr 0x1A e) s)

/-- R107, R127: while STATUS.BUSY is 1 a write changes nothing and starts nothing, in either form of a command. -/
def Obligations.BusyTurnsWritesAway : Prop :=
  ∀ (s : State) (a d : Byte), statusBusy s = true →
    exec (.wr a d) s = .next s ∧ exec .enc1 s = .next s ∧ exec .enc2 s = .next s ∧ exec .enc3 s = .next s

/-- R108: what RD returns at every offset, in every legal state (Obligations.EveryStepKeepsStatesLegal). Nothing but the
response changes. -/
def Obligations.ReadReturnsTheRegister : Prop :=
  ∀ (s : State) (a : Byte), Legal s → ∃ b : Byte, exec (.rd a) s = .next { s with response := some b } ∧
    (∀ h : a.toNat < 10, b = s.call[a.toNat]) ∧
    (a.toNat = 0x0A → b = s.callLen) ∧ (a.toNat = 0x0B → b = s.power) ∧
    (∀ (i : Nat) (h : i < 4), a.toNat = 0x0C + i → b = s.loc4[i]) ∧
    (∀ (i : Nat) (h : i < 6), a.toNat = 0x10 + i → b = s.loc6[i]) ∧
    (∀ (i : Nat) (h : i < 3), a.toNat = 0x16 + i → b = s.pfx[i]) ∧
    (a.toNat = 0x19 → b = s.sfx) ∧ (a.toNat = 0x1A → b = s.flags) ∧ (a.toNat = 0x1B → b = 0x00) ∧
    (a.toNat = 0x1C → b = s.status) ∧
    (∀ (i : Nat) (h : i < 162), a.toNat = 0x20 + i → b.toNat = s.sym[i].toNat) ∧
    ((0x1D ≤ a.toNat ∧ a.toNat ≤ 0x1F) ∨ 0xC2 ≤ a.toNat → b = 0x00)

/-- R34: no read has a side effect (every later read returns the same as before), every write other than to CMD is
idempotent and starts nothing, and a write to CMD starts an ENCODE. -/
def Obligations.ReadsAreFreeAndWritesIdempotent : Prop :=
  (∀ (s t : State) (a : Byte), exec (.rd a) s = .next t →
    sameRegisters s t ∧ ∀ b : Byte, windowRead t b = windowRead s b) ∧
  (∀ (s t : State) (a d : Byte), a ≠ 0x1B → exec (.wr a d) s = .next t →
    exec (.wr a d) t = .next t ∧ t.status = s.status ∧ t.sym = s.sym) ∧
  (∀ (s : State) (w : Byte), statusBusy s = false → exec (.wr 0x1B w) s = .next (encodeCommand w s))

/-! ## The commands -/

/-- R104: ENC1's result and its errors in order, for every state that is not busy. Nothing but SYM and STATUS changes. -/
def Obligations.Enc1EncodesTypeOne : Prop :=
  ∀ s : State, statusBusy s = false →
    (s.callLen.toNat ≤ 10 → Spec.Packs (normCall s.call s.callLen) → Spec.LocatorPacks (normLoc s.loc4) →
      exec .enc1 s = .next { s with
        sym := Spec.stream s (Spec.nOf (normCall s.call s.callLen))
          (Spec.locOf (normLoc s.loc4) * 128 + s.power.toNat + 64),
        status := 0x01 }) ∧
    (10 < s.callLen.toNat → exec .enc1 s = .next { s with status := 0x23 }) ∧
    (s.callLen.toNat ≤ 10 → ¬ Spec.Packs (normCall s.call s.callLen) →
      exec .enc1 s = .next { s with status := 0x13 }) ∧
    (s.callLen.toNat ≤ 10 → Spec.Packs (normCall s.call s.callLen) → ¬ Spec.LocatorPacks (normLoc s.loc4) →
      exec .enc1 s = .next { s with status := 0x13 })

/-- R105: ENC2's two forms and its errors in order, for every state that is not busy. -/
def Obligations.Enc2EncodesTypeTwo : Prop :=
  ∀ s : State, statusBusy s = false →
    (s.callLen.toNat ≤ 10 → Spec.Packs (normCall s.call s.callLen) → s.flags.getLsbD 0 = true → s.sfx.toNat ≤ 81 →
      exec .enc2 s = .next { s with
        sym := Spec.stream s (Spec.nOf (normCall s.call s.callLen))
          ((27232 + (s.sfx.toNat : Int)) * 128 + s.power.toNat + 66),
        status := 0x01 }) ∧
    (s.callLen.toNat ≤ 10 → Spec.Packs (normCall s.call s.callLen) → s.flags.getLsbD 0 = false → Spec.PfxPacks s.pfx →
      exec .enc2 s = .next { s with
        sym := Spec.stream s (Spec.nOf (normCall s.call s.callLen))
          (if 32767 < Spec.gOf s.pfx then (Spec.gOf s.pfx - 32768) * 128 + s.power.toNat + 66
            else Spec.gOf s.pfx * 128 + s.power.toNat + 65),
        status := 0x01 }) ∧
    (10 < s.callLen.toNat → exec .enc2 s = .next { s with status := 0x23 }) ∧
    (s.callLen.toNat ≤ 10 → ¬ Spec.Packs (normCall s.call s.callLen) →
      exec .enc2 s = .next { s with status := 0x13 }) ∧
    (s.callLen.toNat ≤ 10 → Spec.Packs (normCall s.call s.callLen) → s.flags.getLsbD 0 = true → 81 < s.sfx.toNat →
      exec .enc2 s = .next { s with status := 0x23 }) ∧
    (s.callLen.toNat ≤ 10 → Spec.Packs (normCall s.call s.callLen) → s.flags.getLsbD 0 = false →
      ¬ Spec.PfxPacks s.pfx → exec .enc2 s = .next { s with status := 0x13 })

/-- R106: ENC3's result and its errors in order, for every state that is not busy. The hash is the model's `hash32`, whose
inner steps the spec supplies from general knowledge (log 7). -/
def Obligations.Enc3EncodesTypeThree : Prop :=
  ∀ s : State, statusBusy s = false →
    (s.callLen.toNat ≤ 10 → Spec.Packs (Spec.loc6Chars s.loc6) → (s.flags.getLsbD 0 = true → s.sfx.toNat ≤ 81) →
      3 ≤ (Spec.compOf s).length → (Spec.compOf s).length ≤ 10 →
      exec .enc3 s = .next { s with
        sym := Spec.stream s (Spec.nOf (Spec.loc6Chars s.loc6)) (128 * Spec.hOf (Spec.compOf s) - s.power.toNat - 1 + 64),
        status := 0x01 }) ∧
    (10 < s.callLen.toNat → exec .enc3 s = .next { s with status := 0x23 }) ∧
    (s.callLen.toNat ≤ 10 → ¬ Spec.Packs (Spec.loc6Chars s.loc6) → exec .enc3 s = .next { s with status := 0x13 }) ∧
    (s.callLen.toNat ≤ 10 → Spec.Packs (Spec.loc6Chars s.loc6) → s.flags.getLsbD 0 = true → 81 < s.sfx.toNat →
      exec .enc3 s = .next { s with status := 0x23 }) ∧
    (s.callLen.toNat ≤ 10 → Spec.Packs (Spec.loc6Chars s.loc6) → (s.flags.getLsbD 0 = true → s.sfx.toNat ≤ 81) →
      ((Spec.compOf s).length < 3 ∨ 10 < (Spec.compOf s).length) → exec .enc3 s = .next { s with status := 0x23 })

/-- R117: the order of the errors is total: STATUS after any byte is written to CMD is decided by the first condition
that applies, over all three commands and the reserved words. -/
def Obligations.FirstErrorDecidesStatus : Prop :=
  ∀ (s : State) (w : Byte), statusBusy s = false → ∃ t, exec (.wr 0x1B w) s = .next t ∧
    t.status = Spec.statusAfter w (snapshot s)

/-- R118: a command that raises `e` reports its code and leaves all else as it was. -/
def Obligations.ErrorReportIsPrecise : Prop :=
  ∀ (s : State) (w : Byte) (e : EncodeError), statusBusy s = false →
    (messageTypeOf w = none ∧ e = .invalidCommand ∨
      ∃ k, messageTypeOf w = some k ∧ encodeSymbols s.platform.sync (packerOf k) (snapshot s) = .error e) →
    ∃ t, exec (.wr 0x1B w) s = .next t ∧ t = { s with status := 0x03 ||| (errCode e <<< 4) } ∧
      statusDone t = true ∧ statusErr t = true ∧ statusBusy t = false ∧
      (t.status = 0x13 ∨ t.status = 0x23 ∨ t.status = 0x43)

/-- R114: InvalidLocator is never raised and ERRCODE 3 never appears; ENC1 with a locator character outside digits and
'A' to 'R' (either case) packs "AA00" and succeeds if nothing else fails. -/
def Obligations.InvalidLocatorIsRepairedNotReported : Prop :=
  (∀ (sync : SyncVector) (k : MessageType) (o : Snapshot), encodeSymbols sync (packerOf k) o ≠ .error .invalidLocator) ∧
  (∀ (s t : State) (w : Byte), statusBusy s = false → exec (.wr 0x1B w) s = .next t → statusErrCode t ≠ 3) ∧
  (∀ s : State, statusBusy s = false → s.callLen.toNat ≤ 10 → Spec.Packs (normCall s.call s.callLen) →
    (∃ i : Fin 4, locatorCharValid (upper s.loc4[i]) = false) →
    exec .enc1 s = .next { s with
      sym := Spec.stream s (Spec.nOf (normCall s.call s.callLen)) (32220 * 128 + s.power.toNat + 64), status := 0x01 })

/-- R46, R115: a reserved word ends at once with InvalidCommand whatever the operand registers hold. -/
def Obligations.ReservedWordReportsInvalidCommand : Prop :=
  ∀ (s : State) (w : Byte), statusBusy s = false → w ≠ 0x01 → w ≠ 0x02 → w ≠ 0x03 →
    exec (.wr 0x1B w) s = .next { s with status := 0x43 }

/-- R44, R103: SYM and STATUS after a command do not depend on the registers it ignores: LOC6, PFX, SFX, FLAGS for ENC1;
LOC4, LOC6 and the unselected one of PFX and SFX for ENC2; LOC4 and the unselected one for ENC3. (One SYNC, since a core has one, R98.) -/
def Obligations.CommandsIgnoreTheOtherRegisters : Prop :=
  ∀ (i : Instr) (s s' : State), Spec.IsCommand i → statusBusy s = false → statusBusy s' = false →
    s'.call = s.call → s'.callLen = s.callLen → s'.power = s.power → s'.sym = s.sym →
    s'.platform.sync = s.platform.sync →
    (i = .enc1 → s'.loc4 = s.loc4) →
    (i ≠ .enc1 → s'.flags.getLsbD 0 = s.flags.getLsbD 0 ∧
      (s.flags.getLsbD 0 = true → s'.sfx = s.sfx) ∧ (s.flags.getLsbD 0 = false → s'.pfx = s.pfx)) →
    (i = .enc3 → s'.loc6 = s.loc6) →
    ∃ t t', exec i s = .next t ∧ exec i s' = .next t' ∧ t'.status = t.status ∧ t'.sym = t.sym

/-- R12, R54: what a CALL slot at or beyond CALL_LEN holds shows in no command's SYM or STATUS. -/
def Obligations.SlotsBeyondTheLengthAreIgnored : Prop :=
  ∀ (i : Instr) (s : State) (call : Vector Byte 10), Spec.IsCommand i →
    (∀ (k : Nat) (h : k < 10), k < s.callLen.toNat → call[k] = s.call[k]) →
    ∃ t t', exec i s = .next t ∧ exec i { s with call := call } = .next t' ∧ t'.status = t.status ∧ t'.sym = t.sym

/-- R27, R103: a command is a function of its operands and its word: repeating it changes nothing more, and two states
with equal operands and one SYNC (R98) end with equal STATUS and, on success, equal SYM, whatever SYM and STATUS held
before. -/
def Obligations.CommandsAreStateless : Prop :=
  (∀ (s t : State) (w : Byte), statusBusy s = false → exec (.wr 0x1B w) s = .next t → exec (.wr 0x1B w) t = .next t) ∧
  ∀ (s s' t t' : State) (w : Byte), statusBusy s = false → statusBusy s' = false → snapshot s' = snapshot s →
    s'.platform.sync = s.platform.sync → exec (.wr 0x1B w) s = .next t → exec (.wr 0x1B w) s' = .next t' →
    t'.status = t.status ∧ (t.status = 0x01 → t'.sym = t.sym)

/-! ## Codec and normalizer -/

/-- R49 and R51: the table of `code` over every byte, and `encodeChar`, which raises InvalidCharacter where `code` gives
the sentinel 255. -/
def Obligations.CodecTable : Prop :=
  ∀ ch : Byte,
    code ch = (if ch.toNat = 0x20 then 36
      else if 0x30 ≤ ch.toNat ∧ ch.toNat ≤ 0x39 then ch.toNat - 0x30
      else if 0x41 ≤ ch.toNat ∧ ch.toNat ≤ 0x5A then ch.toNat - 0x41 + 10 else 255) ∧
    encodeChar ch = (if code ch = 255 then .error .invalidCharacter else .ok (code ch))

/-- R53 to R58: the six positions of the normalized call sign, with and without the shift of step 1; and what the cleaning
of R56 makes of every byte. -/
def Obligations.NormalizedCallSignPositions : Prop :=
  (∀ b : Byte, (cleanChar b).toNat =
    if (0x30 ≤ b.toNat ∧ b.toNat ≤ 0x39) ∨ (0x41 ≤ b.toNat ∧ b.toNat ≤ 0x5A) then b.toNat
    else if 0x61 ≤ b.toNat ∧ b.toNat ≤ 0x7A then b.toNat - 0x20 else 0x20) ∧
  ∀ (call : Vector Byte 10) (len : Byte), len.toNat ≤ 10 → ∀ r : Nat → Byte,
    (∀ (k : Nat) (h : k < 10), r k = if k < len.toNat then call[k] else 0x00) →
    (isDigit (r 1) = true ∧ isUpper (r 2) = true →
      (normCall call len)[0] = 0x20 ∧
      (∀ (k : Nat) (h : k < 4), (normCall call len)[k + 1] = cleanChar (r k)) ∧
      (normCall call len)[5] = (if cleanChar (r 3) = 0x20 then 0x20 else cleanChar (r 4))) ∧
    (¬ (isDigit (r 1) = true ∧ isUpper (r 2) = true) →
      (∀ (k : Nat) (h : k < 5), (normCall call len)[k] = cleanChar (r k)) ∧
      (normCall call len)[5] = (if cleanChar (r 4) = 0x20 then 0x20 else cleanChar (r 5)))

/-- R59: what `callsign6` is guaranteed to be, and what it is not. -/
def Obligations.NormalizedCallSignGuarantee : Prop :=
  (∀ (call : Vector Byte 10) (len : Byte),
    (∀ (k : Nat) (h : k < 6), (normCall call len)[k] = 0x20 ∨ isDigit (normCall call len)[k] = true ∨
      isUpper (normCall call len)[k] = true) ∧
    ((normCall call len)[4] = 0x20 → (normCall call len)[5] = 0x20)) ∧
  (∃ (call : Vector Byte 10) (len : Byte), len.toNat ≤ 10 ∧ isDigit (normCall call len)[2] = false) ∧
  ∀ (k : Nat) (h : k < 6), 3 ≤ k →
    ∃ (call : Vector Byte 10) (len : Byte), len.toNat ≤ 10 ∧ isDigit (normCall call len)[k] = true

/-- R64: normalizing again. For the call sign it changes nothing exactly when step 1 makes no shift on the normalized
string, so it changes nothing for a raw string without lowercase letters; "w1abc" is the counterexample. For the locator
it never changes anything. The exact condition of the first clause follows from the algorithm of R53 and R55 to R57 and
not from R64, whose own words for it are looser: the model's reading, log 19. -/
def Obligations.NormalizingAgain : Prop :=
  (∀ (call : Vector Byte 10) (len : Byte),
    normCall (Spec.asRaw (normCall call len)) 6 = normCall call len ↔
      shiftsRight (Spec.asRaw (normCall call len)) 6 = false) ∧
  (∀ (call : Vector Byte 10) (len : Byte),
    (∀ (k : Nat) (h : k < 10), k < len.toNat → isLower call[k] = false) →
    normCall (Spec.asRaw (normCall call len)) 6 = normCall call len) ∧
  (normCall #v[0x77, 0x31, 0x61, 0x62, 0x63, 0, 0, 0, 0, 0] 5 = #v[0x57, 0x31, 0x41, 0x42, 0x43, 0x20] ∧
    normCall (Spec.asRaw #v[0x57, 0x31, 0x41, 0x42, 0x43, 0x20]) 6 = #v[0x20, 0x57, 0x31, 0x41, 0x42, 0x43]) ∧
  ∀ loc4 : Vector Byte 4, normLoc (normLoc loc4) = normLoc loc4

/-- R60: a locator of digits and letters 'A' to 'R' in either case is uppercased; any other character in any position
replaces the whole by "AA00". -/
def Obligations.LocatorIsAllOrNothing : Prop :=
  ∀ loc4 : Vector Byte 4,
    let valid : Byte → Prop := fun b => (0x30 ≤ b.toNat ∧ b.toNat ≤ 0x39) ∨ (0x41 ≤ b.toNat ∧ b.toNat ≤ 0x52) ∨
      (0x61 ≤ b.toNat ∧ b.toNat ≤ 0x72)
    ((∀ i : Fin 4, valid loc4[i]) → ∀ i : Fin 4,
      (normLoc loc4)[i].toNat = if 0x61 ≤ loc4[i].toNat then loc4[i].toNat - 0x20 else loc4[i].toNat) ∧
    ((∃ i : Fin 4, ¬ valid loc4[i]) → normLoc loc4 = #v[0x41, 0x41, 0x30, 0x30])

/-! ## Packer -/

/-- R66: `packN` raises InvalidCharacter exactly when the positional check fails, and raises nothing else. -/
def Obligations.PackNChecksPositions : Prop :=
  ∀ ch : Vector Byte 6,
    (packN ch = .error .invalidCharacter ↔
      (∃ i : Fin 6, code ch[i] = 255) ∨ 9 < code ch[2] ∨ code ch[3] < 10 ∨ code ch[4] < 10 ∨ code ch[5] < 10) ∧
    ∀ e, packN ch = .error e → e = .invalidCharacter

/-- R67: `n` fits its field: it is at most 262374389, reached by "  9   ", nothing is truncated, and among strings of
letters and digits the largest is that of "ZZ9ZZZ", 255090922. -/
def Obligations.PackNFitsItsField : Prop :=
  (∀ (ch : Vector Byte 6) (n : BitVec 28), packN ch = .ok n →
    n.toNat = Spec.nOf ch ∧ Spec.nOf ch ≤ 262374389 ∧
    ((∀ i : Fin 6, ch[i] ≠ 0x20) → Spec.nOf ch ≤ 255090922)) ∧
  packN #v[0x20, 0x20, 0x39, 0x20, 0x20, 0x20] = .ok 262374389#28 ∧
  packN #v[0x5A, 0x5A, 0x39, 0x5A, 0x5A, 0x5A] = .ok 255090922#28

/-- R69: the value of a locator that passed R68's check: its formula, its range with both ends reached, and one to one. -/
def Obligations.LocatorValueIsOneToOne : Prop :=
  (∀ loc : Vector Byte 4, Spec.LocatorPacks loc → (locVal loc : Int) = Spec.locOf loc ∧ locVal loc ≤ 32399) ∧
  (∀ loc loc' : Vector Byte 4, Spec.LocatorPacks loc → Spec.LocatorPacks loc' → locVal loc = locVal loc' → loc = loc') ∧
  locVal #v[0x52, 0x41, 0x39, 0x30] = 0 ∧ locVal #v[0x41, 0x52, 0x30, 0x39] = 32399

/-- R72: the PFX value lies in 0 to 50652; 32767 is the last to take the offset +65 and 32768 the first to take +66; with
a power of at most 60 nothing is truncated. -/
def Obligations.PfxValueSplitsAtItsBoundary : Prop :=
  (∀ (pfx : Vector Byte 3) (g : Nat), pfxValue pfx = .ok g → (g : Int) = Spec.gOf pfx ∧ g ≤ 50652) ∧
  (∀ power : Byte, (trunc22 (pfxField 32767 power)).toNat = (4194241 + power.toNat) % 4194304 ∧
    (trunc22 (pfxField 32768 power)).toNat = power.toNat + 66) ∧
  ∀ (g : Nat) (power : Byte), g ≤ 50652 → power.toNat ≤ 60 →
    ((trunc22 (pfxField g power)).toNat : Int) =
      if 32767 < g then ((g : Int) - 32768) * 128 + power.toNat + 66 else (g : Int) * 128 + power.toNat + 65

/-- R74: the serialized field is the residue modulo 2^22 of what the formula of its type gives, whatever that is; so for
type 3 with any hash and any power, borrows and negative values among them (R73, R109, U9). For a power of at most 63 that
is 128·(h mod 32768) + 63 − power, so bit 15 of the hash is dropped; a negative value wraps; the type 1 and type 2 suffix
fields are never changed by the truncation. -/
def Obligations.FieldMIsTheResidue : Prop :=
  (∀ v : Int, ((trunc22 v).toNat : Int) = v % 4194304) ∧
  (∀ (h : BitVec 16) (power : Byte),
    ((trunc22 (hashField h power)).toNat : Int) = (128 * (h.toNat : Int) - power.toNat - 1 + 64) % 4194304) ∧
  (∀ (h : BitVec 16) (power : Byte), power.toNat ≤ 63 →
    (trunc22 (hashField h power)).toNat = 128 * (h.toNat % 32768) + (63 - power.toNat)) ∧
  (∀ power : Byte, 63 < power.toNat → (trunc22 (hashField 0 power)).toNat = 4194304 + 63 - power.toNat) ∧
  (∀ (v : Nat) (power : Byte), v ≤ 32399 →
    (trunc22 ((v : Int) * 128 + power.toNat + 64)).toNat = v * 128 + power.toNat + 64) ∧
  ∀ (v : Nat) (power : Byte), v ≤ 81 →
    (trunc22 ((27232 + (v : Int)) * 128 + power.toNat + 66)).toNat = (27232 + v) * 128 + power.toNat + 66

/-- R75: payload bits 0 to 27 are `n` from bit 27 down, bits 28 to 49 are `m` from bit 21 down, and bits 50 to 87 are 0. -/
def Obligations.SerializedPayloadLayout : Prop :=
  ∀ (p : Payload) (t : Nat), t < 88 →
    inputBit (serialize p) t =
      if t < 28 then p.n.getLsbD (27 - t) else if t < 50 then p.m.getLsbD (49 - t) else false

/-! ## Hasher -/

/-- R77: the text of every suffix code; above 81 InvalidCallSign. -/
def Obligations.SuffixTextTable : Prop :=
  ∀ sfx : Byte, suffixText sfx = if sfx.toNat ≤ 81 then .ok (Spec.textOf sfx.toNat) else .error .invalidCallSign

/-- R79: strings of 3 to 10 bytes are hashed and every other length raises InvalidCallSign; so, for CALL_LEN at most 10,
a prefix admits CALL_LEN 0 to 6, a one-character suffix 1 to 8, a two-character suffix 0 to 7. -/
def Obligations.CompositeLengthWindow : Prop :=
  (∀ comp : List Byte, (comp.length < 3 ∨ 10 < comp.length → hash16 comp = .error .invalidCallSign) ∧
    (3 ≤ comp.length → comp.length ≤ 10 → ∃ h, hash16 comp = .ok h)) ∧
  ∀ o : Snapshot, o.callLen.toNat ≤ 10 →
    ((∃ comp h, composite o = .ok comp ∧ hash16 comp = .ok h) ↔
      if o.useSuffix then
        (o.sfx.toNat ≤ 35 ∧ 1 ≤ o.callLen.toNat ∧ o.callLen.toNat ≤ 8) ∨
          (36 ≤ o.sfx.toNat ∧ o.sfx.toNat ≤ 81 ∧ o.callLen.toNat ≤ 7)
      else o.callLen.toNat ≤ 6)

/-- R80: the seed of all three accumulators for every supported length (the spec's list). -/
def Obligations.HashSeeds : Prop :=
  (List.range 8).map (fun k => hashSeedOf (k + 3)) =
    [0xDEADBF84, 0xDEADBF85, 0xDEADBF86, 0xDEADBF87, 0xDEADBF88, 0xDEADBF89, 0xDEADBF8A, 0xDEADBF8B]

/-- R37, R80, R81, R82, R83: for every string the hasher takes, the three input words are its bytes little-endian, zero
past the end; the accumulators before the mixing and after its seven steps are the spec's formulas over numbers modulo
2^32; and the result is the low 16 bits of the third. (Which accumulator takes which word, addition, the zero padding and
the pairing of the steps are the spec's own supply from general knowledge: log 7.) -/
def Obligations.HashFollowsItsSchedule : Prop :=
  ∀ comp : List Byte, 3 ≤ comp.length → comp.length ≤ 10 →
    (∀ w : Nat, w < 3 → (inputWord comp w).toNat = Spec.wordAt comp w) ∧
    ((seeded comp).a.toNat, (seeded comp).b.toNat, (seeded comp).c32.toNat) = Spec.seededNat comp ∧
    ((hash32 comp).a.toNat, (hash32 comp).b.toNat, (hash32 comp).c32.toNat) = Spec.mixedNat (Spec.seededNat comp) ∧
    hash16 comp = .ok (BitVec.ofNat 16 ((Spec.mixedNat (Spec.seededNat comp)).2.2 % 65536))

/-! ## Convolutional encoder, interleaver, sync merger -/

/-- R87: the shift-register machine computes the convolution: output `2k` is the parity of POLY0's taps over the input
bits that entered `i` steps before step `k`, output `2k + 1` the same with POLY1. -/
def Obligations.ShiftRegistersComputeTheConvolution : Prop :=
  ∀ (buf : Vector Byte 11) (k : Nat) (h : k < 81),
    (convEncode buf)[2 * k] = Spec.tapParity 0xF2D05351 buf k ∧
    (convEncode buf)[2 * k + 1] = Spec.tapParity 0xE4613C47 buf k

/-- R90: the encoder is linear over GF(2), the zero buffer gives zeros, the all-ones buffer gives pairs of 1 from step 31
on, and a single 1 at step 80 shows in the last pair alone. -/
def Obligations.EncoderIsLinear : Prop :=
  (∀ a b : Vector Byte 11, convEncode (Vector.ofFn fun i : Fin 11 => a[i] ^^^ b[i]) =
    Vector.ofFn fun i : Fin 162 => xor (convEncode a)[i] (convEncode b)[i]) ∧
  convEncode (Vector.replicate 11 0) = Vector.replicate 162 false ∧
  (∀ (k : Nat) (h : k < 162), 62 ≤ k → (convEncode (Vector.replicate 11 0xFF))[k] = true) ∧
  ∀ (k : Nat) (h : k < 162), (convEncode #v[0, 0, 0, 0, 0, 0, 0, 0, 0, 0, 0x80])[k] = decide (160 ≤ k)

/-- R89: exactly the first 81 input bits are consumed: two buffers have the same output exactly when they agree on them;
and input bits 50 to 80 of a packed payload are zeros. -/
def Obligations.ExactlyEightyOneBitsConsumed : Prop :=
  (∀ a b : Vector Byte 11, convEncode a = convEncode b ↔ ∀ t : Nat, t < 81 → inputBit a t = inputBit b t) ∧
  ∀ (p : Payload) (t : Nat), 50 ≤ t → t ≤ 80 → inputBit (serialize p) t = false

/-- R91: `rev8` reverses the eight bits, is its own inverse and is a bijection of 0..255. -/
def Obligations.RevEightReversesBits : Prop :=
  ∀ j : Nat, j < 256 → rev8 j < 256 ∧ rev8 (rev8 j) = j ∧
    ∀ i : Nat, i < 8 → (rev8 j).testBit (7 - i) = j.testBit i

/-- R94 and R95: the interleaver moves input bit `p` to position DEST[p], so position `i` holds input bit SRC[i], for the
two tables as printed; DEST[p] is the p-th reversal below 162, SRC[i] counts those before, and each undoes the other. -/
def Obligations.InterleaverFollowsItsTables : Prop :=
  (∀ (s : Vector Bool 162) (p : Nat) (h : p < 162),
    (interleave s)[destTable.getD p 0]? = some s[p] ∧ (interleave s)[p] = s.toList.getD (srcTable.getD p 0) false ∧
    srcTable.getD p 0 < 162) ∧
  destTable = ((List.range 255).map rev8).filter (· < 162) ∧
  ∀ p : Nat, p < 162 → srcTable.getD p 0 = (List.range (rev8 p)).countP (fun j => rev8 j < 162) ∧
    srcTable.getD (destTable.getD p 0) 0 = p

/-- R93: the interleaver is a permutation of its 162 bits. -/
def Obligations.InterleaverPermutes : Prop :=
  ∀ s : Vector Bool 162, (interleave s).toList.Perm s.toList

/-- R97, R99, for every synchronization vector: bit 0 of each symbol is the sync bit and bit 1 the parity bit; streams
whose parity bits differ at `i` differ by exactly 2 there; all parity bits 0 gives the vector itself. -/
def Obligations.SymbolsCarrySyncAndParity : Prop :=
  ∀ (sync : SyncVector) (d e : Vector Bool 162) (i : Nat) (h : i < 162),
    (syncMerge sync d)[i].toNat % 2 = sync[i].toNat ∧ (syncMerge sync d)[i].toNat / 2 = d[i].toNat ∧
    (d[i] = false → e[i] = true → (syncMerge sync e)[i].toNat = (syncMerge sync d)[i].toNat + 2) ∧
    (syncMerge sync (Vector.replicate 162 false))[i].toNat = sync[i].toNat

/-- No two payloads share a symbol stream, whatever the synchronization vector (derived from R75, R87, R93, R97): the 162
symbols determine `n` and `m`. -/
def Obligations.SymbolStreamDeterminesPayload : Prop :=
  ∀ (sync : SyncVector) (p q : Payload), symbolsOf sync p = symbolsOf sync q → p = q

/-! ## Script actions -/

/-- R48: the transactions of SETCALL put the text into CALL, its length into CALL_LEN, and change nothing else. -/
def Obligations.SetcallLoadsTheCallSign : Prop :=
  ∀ (s : State) (text : List Char), statusBusy s = false → (ScriptAction.setcall text).wellFormed = true →
    Spec.runAll (ScriptAction.setcall text).expand s = some { s with
      call := Vector.ofFn fun i : Fin 10 => if h : i.val < text.length then charCode text[i] else s.call[i]
      callLen := BitVec.ofNat 8 text.length }
end

