-- ==== Sys2Proof/Laws/Stages.lean ====
section
/-! SUPPORT. Small lemmas of the stages: what each element of a stage's result is, and when a stage succeeds. -/

namespace Sys2Proof.Machine

/-! Codec and normalizer. -/

theorem isDigit_iff (b : Byte) : isDigit b = true ↔ 0x30 ≤ b.toNat ∧ b.toNat ≤ 0x39 := by
  simp [isDigit]

theorem isUpper_iff (b : Byte) : isUpper b = true ↔ 0x41 ≤ b.toNat ∧ b.toNat ≤ 0x5A := by
  simp [isUpper]

theorem encodeChar_ok_iff (ch : Byte) (v : Nat) : encodeChar ch = .ok v ↔ code ch = v ∧ code ch ≠ sentinel := by
  revert v
  revert ch
  have key : ∀ ch : Byte, encodeChar ch = if code ch = sentinel then .error .invalidCharacter else .ok (code ch) := by
    decide +kernel
  intro ch v
  rw [key]
  by_cases h : code ch = sentinel <;> simp [h]

@[simp] theorem normCall_getElem (call : Vector Byte 10) (callLen : Byte) (i : Nat) (h : i < 6) :
    (normCall call callLen)[i] =
      if i = 5 ∧ cleanedChar call callLen 4 = space then space else cleanedChar call callLen i := by
  simp [normCall]

theorem normLoc_accepted {loc4 : Vector Byte 4} (h : locatorAccepted loc4 = true) (i : Nat) (hi : i < 4) :
    (normLoc loc4)[i] = upper loc4[i] := by
  simp [normLoc, h]

theorem normLoc_rejected {loc4 : Vector Byte 4} (h : locatorAccepted loc4 = false) : normLoc loc4 = fallbackLocator := by
  simp [normLoc, h]

/-! Packer. -/

theorem packN_ok_iff (ch : Vector Byte 6) (n : BitVec 28) :
    packN ch = .ok n ↔ positionsValid ch = true ∧ n = BitVec.ofNat 28 (packNValue ch) := by
  by_cases h : positionsValid ch = true
  · simpa [packN, h] using eq_comm
  · simp [packN, h]

theorem packN_error_iff (ch : Vector Byte 6) (e : EncodeError) :
    packN ch = .error e ↔ positionsValid ch = false ∧ e = .invalidCharacter := by
  by_cases h : positionsValid ch = true
  · simp [packN, h]
  · simpa [packN, h] using eq_comm

/-- All that `packType1` can answer. -/
theorem packType1_eq (msg : NormalizedMessage) :
    packType1 msg =
      if positionsValid msg.callsign6 = true ∧ locatorPackable msg.locator4 = true then
        .ok ⟨BitVec.ofNat 28 (packNValue msg.callsign6),
          trunc22 ((locVal msg.locator4 : Int) * 128 + msg.power.toNat + 64)⟩
      else .error .invalidCharacter := by
  unfold packType1 packN
  by_cases h1 : positionsValid msg.callsign6 = true <;> by_cases h2 : locatorPackable msg.locator4 = true <;>
    simp [h1, h2]

/-- The only errors a stage can raise are InvalidCharacter and InvalidCallSign (R112, R113). -/
abbrev StageError (e : EncodeError) : Prop := e = .invalidCharacter ∨ e = .invalidCallSign

theorem packN_error {ch : Vector Byte 6} {e : EncodeError} (h : packN ch = .error e) : StageError e :=
  .inl ((packN_error_iff ch e).1 h).2

theorem encodeChar_error {ch : Byte} {e : EncodeError} (h : encodeChar ch = .error e) : StageError e := by
  unfold encodeChar at h
  repeat (split at h; · cases h)
  cases h; exact .inl rfl

theorem suffixText_error {sfx : Byte} {e : EncodeError} (h : suffixText sfx = .error e) : StageError e := by
  unfold suffixText at h
  dsimp only at h
  repeat (split at h; · cases h)
  cases h; exact .inr rfl

theorem composite_error {o : Snapshot} {e : EncodeError} (h : composite o = .error e) : StageError e := by
  unfold composite at h
  dsimp only at h
  split at h
  · split at h
    · cases h
    · next h' => cases h; exact suffixText_error h'
  · cases h

theorem hash16_error {comp : List Byte} {e : EncodeError} (h : hash16 comp = .error e) : StageError e := by
  unfold hash16 at h
  split at h
  · cases h; exact .inr rfl
  · cases h

theorem pfxValue_error {pfx : Vector Byte 3} {e : EncodeError} (h : pfxValue pfx = .error e) : StageError e := by
  unfold pfxValue at h
  split at h
  · next h' => cases h; exact encodeChar_error h'
  · split at h
    · next h' => cases h; exact encodeChar_error h'
    · split at h
      · next h' => cases h; exact encodeChar_error h'
      · cases h

theorem packEnc1_error {msg : NormalizedMessage} {o : Snapshot} {e : EncodeError} (h : packEnc1 msg o = .error e) :
    StageError e := by
  rw [packEnc1, packType1_eq] at h
  split at h
  · cases h
  · cases h; exact .inl rfl

theorem packEnc2_error {msg : NormalizedMessage} {o : Snapshot} {e : EncodeError} (h : packEnc2 msg o = .error e) :
    StageError e := by
  unfold packEnc2 packType2Suffix packType2Pfx at h
  split at h
  · split at h
    · next h' => cases h; exact packN_error h'
    · split at h
      · cases h; exact .inr rfl
      · cases h
  · split at h
    · next h' => cases h; exact packN_error h'
    · split at h
      · next h' => cases h; exact pfxValue_error h'
      · cases h

theorem packEnc3_error {msg : NormalizedMessage} {o : Snapshot} {e : EncodeError} (h : packEnc3 msg o = .error e) :
    StageError e := by
  unfold packEnc3 packType3 at h
  split at h
  · next h' => cases h; exact packN_error h'
  · split at h
    · next h' => cases h; exact composite_error h'
    · split at h
      · next h' => cases h; exact hash16_error h'
      · cases h

theorem packerOf_error {k : MessageType} {msg : NormalizedMessage} {o : Snapshot} {e : EncodeError}
    (h : packerOf k msg o = .error e) : StageError e := by
  cases k
  · exact packEnc1_error (o := o) h
  · exact packEnc2_error (o := o) h
  · exact packEnc3_error (o := o) h

/-! Convolutional encoder, interleaver, sync merger. -/

@[simp] theorem convEncode_toList (c : Vector Byte 11) : (convEncode c).toList = convLoop 0 0 (inputBits c) := rfl

theorem convLoop_append (r0 r1 : Word32) (us vs : List Bool) :
    convLoop r0 r1 (us ++ vs) = convLoop r0 r1 us ++ convLoop (us.foldl shiftIn r0) (us.foldl shiftIn r1) vs := by
  induction us generalizing r0 r1 with
  | nil => rfl
  | cons u us ih => simp [convLoop, ih]

@[simp] theorem syncMerge_getElem (sync : SyncVector) (d : Vector Bool 162) (i : Nat) (h : i < 162) :
    (syncMerge sync d)[i] = symbol sync[i] d[i] := by
  simp [syncMerge]

theorem symbol_toNat (y b : Bool) : (symbol y b).toNat = y.toNat + 2 * b.toNat := by
  cases y <;> cases b <;> rfl

/-- Where the pass still has a bit for every position it will reach, it places the bits in order. -/
theorem placeBits_cons_lt (j : Nat) (js : List Nat) (b : Bool) (bits : List Bool) (d : Vector Bool 162)
    (h : rev8 j < 162) : placeBits (j :: js) (b :: bits) d = placeBits js bits (d.set (rev8 j) b h) := by
  simp [placeBits, h]

theorem placeBits_cons_ge (j : Nat) (js : List Nat) (bits : List Bool) (d : Vector Bool 162) (h : ¬ rev8 j < 162) :
    placeBits (j :: js) bits d = placeBits js bits d := by
  simp [placeBits, h]

end Sys2Proof.Machine
end

