-- ==== Sys2Proof/Laws/State.lean ====
section
/-! SUPPORT. One lemma per field per update of State, so that no proof unfolds an update. -/

namespace Sys2Proof.Machine.State

@[simp] theorem withCall_call (s : State) (i : Fin 10) (b : Byte) : (s.withCall i b).call = s.call.set i b := rfl
@[simp] theorem withCall_callLen (s : State) (i : Fin 10) (b : Byte) : (s.withCall i b).callLen = s.callLen := rfl
@[simp] theorem withCall_power (s : State) (i : Fin 10) (b : Byte) : (s.withCall i b).power = s.power := rfl
@[simp] theorem withCall_loc4 (s : State) (i : Fin 10) (b : Byte) : (s.withCall i b).loc4 = s.loc4 := rfl
@[simp] theorem withCall_loc6 (s : State) (i : Fin 10) (b : Byte) : (s.withCall i b).loc6 = s.loc6 := rfl
@[simp] theorem withCall_pfx (s : State) (i : Fin 10) (b : Byte) : (s.withCall i b).pfx = s.pfx := rfl
@[simp] theorem withCall_sfx (s : State) (i : Fin 10) (b : Byte) : (s.withCall i b).sfx = s.sfx := rfl
@[simp] theorem withCall_flags (s : State) (i : Fin 10) (b : Byte) : (s.withCall i b).flags = s.flags := rfl
@[simp] theorem withCall_status (s : State) (i : Fin 10) (b : Byte) : (s.withCall i b).status = s.status := rfl
@[simp] theorem withCall_sym (s : State) (i : Fin 10) (b : Byte) : (s.withCall i b).sym = s.sym := rfl
@[simp] theorem withCall_platform (s : State) (i : Fin 10) (b : Byte) : (s.withCall i b).platform = s.platform := rfl
@[simp] theorem withCall_response (s : State) (i : Fin 10) (b : Byte) : (s.withCall i b).response = s.response := rfl
@[simp] theorem withCall_inbox (s : State) (i : Fin 10) (b : Byte) : (s.withCall i b).inbox = s.inbox := rfl
@[simp] theorem withCall_resetCount (s : State) (i : Fin 10) (b : Byte) : (s.withCall i b).resetCount = s.resetCount := rfl

@[simp] theorem withCallLen_call (s : State) (b : Byte) : (s.withCallLen b).call = s.call := rfl
@[simp] theorem withCallLen_callLen (s : State) (b : Byte) : (s.withCallLen b).callLen = b := rfl
@[simp] theorem withCallLen_power (s : State) (b : Byte) : (s.withCallLen b).power = s.power := rfl
@[simp] theorem withCallLen_loc4 (s : State) (b : Byte) : (s.withCallLen b).loc4 = s.loc4 := rfl
@[simp] theorem withCallLen_loc6 (s : State) (b : Byte) : (s.withCallLen b).loc6 = s.loc6 := rfl
@[simp] theorem withCallLen_pfx (s : State) (b : Byte) : (s.withCallLen b).pfx = s.pfx := rfl
@[simp] theorem withCallLen_sfx (s : State) (b : Byte) : (s.withCallLen b).sfx = s.sfx := rfl
@[simp] theorem withCallLen_flags (s : State) (b : Byte) : (s.withCallLen b).flags = s.flags := rfl
@[simp] theorem withCallLen_status (s : State) (b : Byte) : (s.withCallLen b).status = s.status := rfl
@[simp] theorem withCallLen_sym (s : State) (b : Byte) : (s.withCallLen b).sym = s.sym := rfl
@[simp] theorem withCallLen_platform (s : State) (b : Byte) : (s.withCallLen b).platform = s.platform := rfl
@[simp] theorem withCallLen_response (s : State) (b : Byte) : (s.withCallLen b).response = s.response := rfl
@[simp] theorem withCallLen_inbox (s : State) (b : Byte) : (s.withCallLen b).inbox = s.inbox := rfl
@[simp] theorem withCallLen_resetCount (s : State) (b : Byte) : (s.withCallLen b).resetCount = s.resetCount := rfl

@[simp] theorem withPower_call (s : State) (b : Byte) : (s.withPower b).call = s.call := rfl
@[simp] theorem withPower_callLen (s : State) (b : Byte) : (s.withPower b).callLen = s.callLen := rfl
@[simp] theorem withPower_power (s : State) (b : Byte) : (s.withPower b).power = b := rfl
@[simp] theorem withPower_loc4 (s : State) (b : Byte) : (s.withPower b).loc4 = s.loc4 := rfl
@[simp] theorem withPower_loc6 (s : State) (b : Byte) : (s.withPower b).loc6 = s.loc6 := rfl
@[simp] theorem withPower_pfx (s : State) (b : Byte) : (s.withPower b).pfx = s.pfx := rfl
@[simp] theorem withPower_sfx (s : State) (b : Byte) : (s.withPower b).sfx = s.sfx := rfl
@[simp] theorem withPower_flags (s : State) (b : Byte) : (s.withPower b).flags = s.flags := rfl
@[simp] theorem withPower_status (s : State) (b : Byte) : (s.withPower b).status = s.status := rfl
@[simp] theorem withPower_sym (s : State) (b : Byte) : (s.withPower b).sym = s.sym := rfl
@[simp] theorem withPower_platform (s : State) (b : Byte) : (s.withPower b).platform = s.platform := rfl
@[simp] theorem withPower_response (s : State) (b : Byte) : (s.withPower b).response = s.response := rfl
@[simp] theorem withPower_inbox (s : State) (b : Byte) : (s.withPower b).inbox = s.inbox := rfl
@[simp] theorem withPower_resetCount (s : State) (b : Byte) : (s.withPower b).resetCount = s.resetCount := rfl

@[simp] theorem withLoc4_call (s : State) (i : Fin 4) (b : Byte) : (s.withLoc4 i b).call = s.call := rfl
@[simp] theorem withLoc4_callLen (s : State) (i : Fin 4) (b : Byte) : (s.withLoc4 i b).callLen = s.callLen := rfl
@[simp] theorem withLoc4_power (s : State) (i : Fin 4) (b : Byte) : (s.withLoc4 i b).power = s.power := rfl
@[simp] theorem withLoc4_loc4 (s : State) (i : Fin 4) (b : Byte) : (s.withLoc4 i b).loc4 = s.loc4.set i b := rfl
@[simp] theorem withLoc4_loc6 (s : State) (i : Fin 4) (b : Byte) : (s.withLoc4 i b).loc6 = s.loc6 := rfl
@[simp] theorem withLoc4_pfx (s : State) (i : Fin 4) (b : Byte) : (s.withLoc4 i b).pfx = s.pfx := rfl
@[simp] theorem withLoc4_sfx (s : State) (i : Fin 4) (b : Byte) : (s.withLoc4 i b).sfx = s.sfx := rfl
@[simp] theorem withLoc4_flags (s : State) (i : Fin 4) (b : Byte) : (s.withLoc4 i b).flags = s.flags := rfl
@[simp] theorem withLoc4_status (s : State) (i : Fin 4) (b : Byte) : (s.withLoc4 i b).status = s.status := rfl
@[simp] theorem withLoc4_sym (s : State) (i : Fin 4) (b : Byte) : (s.withLoc4 i b).sym = s.sym := rfl
@[simp] theorem withLoc4_platform (s : State) (i : Fin 4) (b : Byte) : (s.withLoc4 i b).platform = s.platform := rfl
@[simp] theorem withLoc4_response (s : State) (i : Fin 4) (b : Byte) : (s.withLoc4 i b).response = s.response := rfl
@[simp] theorem withLoc4_inbox (s : State) (i : Fin 4) (b : Byte) : (s.withLoc4 i b).inbox = s.inbox := rfl
@[simp] theorem withLoc4_resetCount (s : State) (i : Fin 4) (b : Byte) : (s.withLoc4 i b).resetCount = s.resetCount := rfl

@[simp] theorem withLoc6_call (s : State) (i : Fin 6) (b : Byte) : (s.withLoc6 i b).call = s.call := rfl
@[simp] theorem withLoc6_callLen (s : State) (i : Fin 6) (b : Byte) : (s.withLoc6 i b).callLen = s.callLen := rfl
@[simp] theorem withLoc6_power (s : State) (i : Fin 6) (b : Byte) : (s.withLoc6 i b).power = s.power := rfl
@[simp] theorem withLoc6_loc4 (s : State) (i : Fin 6) (b : Byte) : (s.withLoc6 i b).loc4 = s.loc4 := rfl
@[simp] theorem withLoc6_loc6 (s : State) (i : Fin 6) (b : Byte) : (s.withLoc6 i b).loc6 = s.loc6.set i b := rfl
@[simp] theorem withLoc6_pfx (s : State) (i : Fin 6) (b : Byte) : (s.withLoc6 i b).pfx = s.pfx := rfl
@[simp] theorem withLoc6_sfx (s : State) (i : Fin 6) (b : Byte) : (s.withLoc6 i b).sfx = s.sfx := rfl
@[simp] theorem withLoc6_flags (s : State) (i : Fin 6) (b : Byte) : (s.withLoc6 i b).flags = s.flags := rfl
@[simp] theorem withLoc6_status (s : State) (i : Fin 6) (b : Byte) : (s.withLoc6 i b).status = s.status := rfl
@[simp] theorem withLoc6_sym (s : State) (i : Fin 6) (b : Byte) : (s.withLoc6 i b).sym = s.sym := rfl
@[simp] theorem withLoc6_platform (s : State) (i : Fin 6) (b : Byte) : (s.withLoc6 i b).platform = s.platform := rfl
@[simp] theorem withLoc6_response (s : State) (i : Fin 6) (b : Byte) : (s.withLoc6 i b).response = s.response := rfl
@[simp] theorem withLoc6_inbox (s : State) (i : Fin 6) (b : Byte) : (s.withLoc6 i b).inbox = s.inbox := rfl
@[simp] theorem withLoc6_resetCount (s : State) (i : Fin 6) (b : Byte) : (s.withLoc6 i b).resetCount = s.resetCount := rfl

@[simp] theorem withPfx_call (s : State) (i : Fin 3) (b : Byte) : (s.withPfx i b).call = s.call := rfl
@[simp] theorem withPfx_callLen (s : State) (i : Fin 3) (b : Byte) : (s.withPfx i b).callLen = s.callLen := rfl
@[simp] theorem withPfx_power (s : State) (i : Fin 3) (b : Byte) : (s.withPfx i b).power = s.power := rfl
@[simp] theorem withPfx_loc4 (s : State) (i : Fin 3) (b : Byte) : (s.withPfx i b).loc4 = s.loc4 := rfl
@[simp] theorem withPfx_loc6 (s : State) (i : Fin 3) (b : Byte) : (s.withPfx i b).loc6 = s.loc6 := rfl
@[simp] theorem withPfx_pfx (s : State) (i : Fin 3) (b : Byte) : (s.withPfx i b).pfx = s.pfx.set i b := rfl
@[simp] theorem withPfx_sfx (s : State) (i : Fin 3) (b : Byte) : (s.withPfx i b).sfx = s.sfx := rfl
@[simp] theorem withPfx_flags (s : State) (i : Fin 3) (b : Byte) : (s.withPfx i b).flags = s.flags := rfl
@[simp] theorem withPfx_status (s : State) (i : Fin 3) (b : Byte) : (s.withPfx i b).status = s.status := rfl
@[simp] theorem withPfx_sym (s : State) (i : Fin 3) (b : Byte) : (s.withPfx i b).sym = s.sym := rfl
@[simp] theorem withPfx_platform (s : State) (i : Fin 3) (b : Byte) : (s.withPfx i b).platform = s.platform := rfl
@[simp] theorem withPfx_response (s : State) (i : Fin 3) (b : Byte) : (s.withPfx i b).response = s.response := rfl
@[simp] theorem withPfx_inbox (s : State) (i : Fin 3) (b : Byte) : (s.withPfx i b).inbox = s.inbox := rfl
@[simp] theorem withPfx_resetCount (s : State) (i : Fin 3) (b : Byte) : (s.withPfx i b).resetCount = s.resetCount := rfl

@[simp] theorem withSfx_call (s : State) (b : Byte) : (s.withSfx b).call = s.call := rfl
@[simp] theorem withSfx_callLen (s : State) (b : Byte) : (s.withSfx b).callLen = s.callLen := rfl
@[simp] theorem withSfx_power (s : State) (b : Byte) : (s.withSfx b).power = s.power := rfl
@[simp] theorem withSfx_loc4 (s : State) (b : Byte) : (s.withSfx b).loc4 = s.loc4 := rfl
@[simp] theorem withSfx_loc6 (s : State) (b : Byte) : (s.withSfx b).loc6 = s.loc6 := rfl
@[simp] theorem withSfx_pfx (s : State) (b : Byte) : (s.withSfx b).pfx = s.pfx := rfl
@[simp] theorem withSfx_sfx (s : State) (b : Byte) : (s.withSfx b).sfx = b := rfl
@[simp] theorem withSfx_flags (s : State) (b : Byte) : (s.withSfx b).flags = s.flags := rfl
@[simp] theorem withSfx_status (s : State) (b : Byte) : (s.withSfx b).status = s.status := rfl
@[simp] theorem withSfx_sym (s : State) (b : Byte) : (s.withSfx b).sym = s.sym := rfl
@[simp] theorem withSfx_platform (s : State) (b : Byte) : (s.withSfx b).platform = s.platform := rfl
@[simp] theorem withSfx_response (s : State) (b : Byte) : (s.withSfx b).response = s.response := rfl
@[simp] theorem withSfx_inbox (s : State) (b : Byte) : (s.withSfx b).inbox = s.inbox := rfl
@[simp] theorem withSfx_resetCount (s : State) (b : Byte) : (s.withSfx b).resetCount = s.resetCount := rfl

@[simp] theorem withFlags_call (s : State) (b : Byte) : (s.withFlags b).call = s.call := rfl
@[simp] theorem withFlags_callLen (s : State) (b : Byte) : (s.withFlags b).callLen = s.callLen := rfl
@[simp] theorem withFlags_power (s : State) (b : Byte) : (s.withFlags b).power = s.power := rfl
@[simp] theorem withFlags_loc4 (s : State) (b : Byte) : (s.withFlags b).loc4 = s.loc4 := rfl
@[simp] theorem withFlags_loc6 (s : State) (b : Byte) : (s.withFlags b).loc6 = s.loc6 := rfl
@[simp] theorem withFlags_pfx (s : State) (b : Byte) : (s.withFlags b).pfx = s.pfx := rfl
@[simp] theorem withFlags_sfx (s : State) (b : Byte) : (s.withFlags b).sfx = s.sfx := rfl
@[simp] theorem withFlags_flags (s : State) (b : Byte) : (s.withFlags b).flags = b := rfl
@[simp] theorem withFlags_status (s : State) (b : Byte) : (s.withFlags b).status = s.status := rfl
@[simp] theorem withFlags_sym (s : State) (b : Byte) : (s.withFlags b).sym = s.sym := rfl
@[simp] theorem withFlags_platform (s : State) (b : Byte) : (s.withFlags b).platform = s.platform := rfl
@[simp] theorem withFlags_response (s : State) (b : Byte) : (s.withFlags b).response = s.response := rfl
@[simp] theorem withFlags_inbox (s : State) (b : Byte) : (s.withFlags b).inbox = s.inbox := rfl
@[simp] theorem withFlags_resetCount (s : State) (b : Byte) : (s.withFlags b).resetCount = s.resetCount := rfl

@[simp] theorem withStatus_call (s : State) (b : Byte) : (s.withStatus b).call = s.call := rfl
@[simp] theorem withStatus_callLen (s : State) (b : Byte) : (s.withStatus b).callLen = s.callLen := rfl
@[simp] theorem withStatus_power (s : State) (b : Byte) : (s.withStatus b).power = s.power := rfl
@[simp] theorem withStatus_loc4 (s : State) (b : Byte) : (s.withStatus b).loc4 = s.loc4 := rfl
@[simp] theorem withStatus_loc6 (s : State) (b : Byte) : (s.withStatus b).loc6 = s.loc6 := rfl
@[simp] theorem withStatus_pfx (s : State) (b : Byte) : (s.withStatus b).pfx = s.pfx := rfl
@[simp] theorem withStatus_sfx (s : State) (b : Byte) : (s.withStatus b).sfx = s.sfx := rfl
@[simp] theorem withStatus_flags (s : State) (b : Byte) : (s.withStatus b).flags = s.flags := rfl
@[simp] theorem withStatus_status (s : State) (b : Byte) : (s.withStatus b).status = b := rfl
@[simp] theorem withStatus_sym (s : State) (b : Byte) : (s.withStatus b).sym = s.sym := rfl
@[simp] theorem withStatus_platform (s : State) (b : Byte) : (s.withStatus b).platform = s.platform := rfl
@[simp] theorem withStatus_response (s : State) (b : Byte) : (s.withStatus b).response = s.response := rfl
@[simp] theorem withStatus_inbox (s : State) (b : Byte) : (s.withStatus b).inbox = s.inbox := rfl
@[simp] theorem withStatus_resetCount (s : State) (b : Byte) : (s.withStatus b).resetCount = s.resetCount := rfl

@[simp] theorem withSym_call (s : State) (v : SymbolStream) : (s.withSym v).call = s.call := rfl
@[simp] theorem withSym_callLen (s : State) (v : SymbolStream) : (s.withSym v).callLen = s.callLen := rfl
@[simp] theorem withSym_power (s : State) (v : SymbolStream) : (s.withSym v).power = s.power := rfl
@[simp] theorem withSym_loc4 (s : State) (v : SymbolStream) : (s.withSym v).loc4 = s.loc4 := rfl
@[simp] theorem withSym_loc6 (s : State) (v : SymbolStream) : (s.withSym v).loc6 = s.loc6 := rfl
@[simp] theorem withSym_pfx (s : State) (v : SymbolStream) : (s.withSym v).pfx = s.pfx := rfl
@[simp] theorem withSym_sfx (s : State) (v : SymbolStream) : (s.withSym v).sfx = s.sfx := rfl
@[simp] theorem withSym_flags (s : State) (v : SymbolStream) : (s.withSym v).flags = s.flags := rfl
@[simp] theorem withSym_status (s : State) (v : SymbolStream) : (s.withSym v).status = s.status := rfl
@[simp] theorem withSym_sym (s : State) (v : SymbolStream) : (s.withSym v).sym = v := rfl
@[simp] theorem withSym_platform (s : State) (v : SymbolStream) : (s.withSym v).platform = s.platform := rfl
@[simp] theorem withSym_response (s : State) (v : SymbolStream) : (s.withSym v).response = s.response := rfl
@[simp] theorem withSym_inbox (s : State) (v : SymbolStream) : (s.withSym v).inbox = s.inbox := rfl
@[simp] theorem withSym_resetCount (s : State) (v : SymbolStream) : (s.withSym v).resetCount = s.resetCount := rfl

@[simp] theorem withResponse_call (s : State) (r : Option Byte) : (s.withResponse r).call = s.call := rfl
@[simp] theorem withResponse_callLen (s : State) (r : Option Byte) : (s.withResponse r).callLen = s.callLen := rfl
@[simp] theorem withResponse_power (s : State) (r : Option Byte) : (s.withResponse r).power = s.power := rfl
@[simp] theorem withResponse_loc4 (s : State) (r : Option Byte) : (s.withResponse r).loc4 = s.loc4 := rfl
@[simp] theorem withResponse_loc6 (s : State) (r : Option Byte) : (s.withResponse r).loc6 = s.loc6 := rfl
@[simp] theorem withResponse_pfx (s : State) (r : Option Byte) : (s.withResponse r).pfx = s.pfx := rfl
@[simp] theorem withResponse_sfx (s : State) (r : Option Byte) : (s.withResponse r).sfx = s.sfx := rfl
@[simp] theorem withResponse_flags (s : State) (r : Option Byte) : (s.withResponse r).flags = s.flags := rfl
@[simp] theorem withResponse_status (s : State) (r : Option Byte) : (s.withResponse r).status = s.status := rfl
@[simp] theorem withResponse_sym (s : State) (r : Option Byte) : (s.withResponse r).sym = s.sym := rfl
@[simp] theorem withResponse_platform (s : State) (r : Option Byte) : (s.withResponse r).platform = s.platform := rfl
@[simp] theorem withResponse_response (s : State) (r : Option Byte) : (s.withResponse r).response = r := rfl
@[simp] theorem withResponse_inbox (s : State) (r : Option Byte) : (s.withResponse r).inbox = s.inbox := rfl
@[simp] theorem withResponse_resetCount (s : State) (r : Option Byte) : (s.withResponse r).resetCount = s.resetCount := rfl

@[simp] theorem withInbox_call (s : State) (l : List HostEvent) : (s.withInbox l).call = s.call := rfl
@[simp] theorem withInbox_callLen (s : State) (l : List HostEvent) : (s.withInbox l).callLen = s.callLen := rfl
@[simp] theorem withInbox_power (s : State) (l : List HostEvent) : (s.withInbox l).power = s.power := rfl
@[simp] theorem withInbox_loc4 (s : State) (l : List HostEvent) : (s.withInbox l).loc4 = s.loc4 := rfl
@[simp] theorem withInbox_loc6 (s : State) (l : List HostEvent) : (s.withInbox l).loc6 = s.loc6 := rfl
@[simp] theorem withInbox_pfx (s : State) (l : List HostEvent) : (s.withInbox l).pfx = s.pfx := rfl
@[simp] theorem withInbox_sfx (s : State) (l : List HostEvent) : (s.withInbox l).sfx = s.sfx := rfl
@[simp] theorem withInbox_flags (s : State) (l : List HostEvent) : (s.withInbox l).flags = s.flags := rfl
@[simp] theorem withInbox_status (s : State) (l : List HostEvent) : (s.withInbox l).status = s.status := rfl
@[simp] theorem withInbox_sym (s : State) (l : List HostEvent) : (s.withInbox l).sym = s.sym := rfl
@[simp] theorem withInbox_platform (s : State) (l : List HostEvent) : (s.withInbox l).platform = s.platform := rfl
@[simp] theorem withInbox_response (s : State) (l : List HostEvent) : (s.withInbox l).response = s.response := rfl
@[simp] theorem withInbox_inbox (s : State) (l : List HostEvent) : (s.withInbox l).inbox = l := rfl
@[simp] theorem withInbox_resetCount (s : State) (l : List HostEvent) : (s.withInbox l).resetCount = s.resetCount := rfl

@[simp] theorem afterReset_call (p : Platform) (k : Nat) (l : List HostEvent) : (afterReset p k l).call = Vector.replicate 10 0 := rfl
@[simp] theorem afterReset_callLen (p : Platform) (k : Nat) (l : List HostEvent) : (afterReset p k l).callLen = 0 := rfl
@[simp] theorem afterReset_power (p : Platform) (k : Nat) (l : List HostEvent) : (afterReset p k l).power = 0 := rfl
@[simp] theorem afterReset_loc4 (p : Platform) (k : Nat) (l : List HostEvent) : (afterReset p k l).loc4 = Vector.replicate 4 0 := rfl
@[simp] theorem afterReset_loc6 (p : Platform) (k : Nat) (l : List HostEvent) : (afterReset p k l).loc6 = Vector.replicate 6 0 := rfl
@[simp] theorem afterReset_pfx (p : Platform) (k : Nat) (l : List HostEvent) : (afterReset p k l).pfx = Vector.replicate 3 0 := rfl
@[simp] theorem afterReset_sfx (p : Platform) (k : Nat) (l : List HostEvent) : (afterReset p k l).sfx = 0 := rfl
@[simp] theorem afterReset_flags (p : Platform) (k : Nat) (l : List HostEvent) : (afterReset p k l).flags = 0 := rfl
@[simp] theorem afterReset_status (p : Platform) (k : Nat) (l : List HostEvent) : (afterReset p k l).status = 0 := rfl
@[simp] theorem afterReset_platform (p : Platform) (k : Nat) (l : List HostEvent) : (afterReset p k l).platform = p := rfl
@[simp] theorem afterReset_response (p : Platform) (k : Nat) (l : List HostEvent) : (afterReset p k l).response = none := rfl
@[simp] theorem afterReset_inbox (p : Platform) (k : Nat) (l : List HostEvent) : (afterReset p k l).inbox = l := rfl
@[simp] theorem afterReset_resetCount (p : Platform) (k : Nat) (l : List HostEvent) : (afterReset p k l).resetCount = k := rfl
@[simp] theorem afterReset_sym_getElem (p : Platform) (k : Nat) (l : List HostEvent) (i : Nat) (h : i < 162) :
    (afterReset p k l).sym[i] = Config.symAtReset k i := by simp [afterReset]

end Sys2Proof.Machine.State
end

