-- ==== Sys2Proof/Laws/Ops.lean ====
section
/-! SUPPORT. What each shared operation can do, said once; later proofs cite these and unfold nothing. -/

namespace Sys2Proof.Machine

/-- `unlessBusy` answers one of its two states, by BUSY alone. -/
theorem unlessBusy_cases (s t : State) :
    (statusBusy s = true ∧ unlessBusy s t = s) ∨ (statusBusy s = false ∧ unlessBusy s t = t) := by
  unfold unlessBusy
  cases h : statusBusy s <;> simp

@[simp] theorem unlessBusy_of_busy {s : State} (h : statusBusy s = true) (t : State) : unlessBusy s t = s := by
  simp [unlessBusy, h]

@[simp] theorem unlessBusy_of_not_busy {s : State} (h : statusBusy s = false) (t : State) : unlessBusy s t = t := by
  simp [unlessBusy, h]

@[simp] theorem reportError_startEncode (e : EncodeError) (s : State) :
    reportError e (startEncode s) = s.withStatus (errorStatus e) := rfl

@[simp] theorem finishEncode_startEncode (v : SymbolStream) (s : State) :
    finishEncode v (startEncode s) = (s.withSym v).withStatus doneStatus := rfl

/-- The stages end with a stream, or with the capacity error, or with the packer's error. -/
theorem encodeSymbols_cases (sync : SyncVector) (pack : Packer) (o : Snapshot) :
    (callMax < o.callLen.toNat ∧ encodeSymbols sync pack o = .error .invalidCallSign) ∨
    (o.callLen.toNat ≤ callMax ∧ ∃ p, pack (normalize o) o = .ok p ∧
      encodeSymbols sync pack o = .ok (symbolsOf sync p)) ∨
    (o.callLen.toNat ≤ callMax ∧ ∃ e, pack (normalize o) o = .error e ∧ encodeSymbols sync pack o = .error e) := by
  unfold encodeSymbols
  by_cases h : callMax < o.callLen.toNat
  · simp [h]
  · rcases hp : pack (normalize o) o with e | p <;> simp [h] <;> omega

/-- An ENCODE with a valid command word raises InvalidCharacter or InvalidCallSign, if anything (R112, R113). -/
theorem encodeSymbols_error {sync : SyncVector} {k : MessageType} {o : Snapshot} {e : EncodeError}
    (h : encodeSymbols sync (packerOf k) o = .error e) : StageError e := by
  rcases encodeSymbols_cases sync (packerOf k) o with ⟨_, h'⟩ | ⟨_, _, _, h'⟩ | ⟨_, _, hp, h'⟩
  · rw [h'] at h; cases h; exact .inr rfl
  · rw [h'] at h; cases h
  · rw [h'] at h; cases h; exact packerOf_error hp

/-- An ENCODE with a valid command word ends in success or in a report, and changes SYM and STATUS at most. -/
theorem runEncode_cases (pack : Packer) (s : State) :
    (∃ v, encodeSymbols s.platform.sync pack (snapshot s) = .ok v ∧
      runEncode pack s = (s.withSym v).withStatus doneStatus) ∨
    (∃ e, encodeSymbols s.platform.sync pack (snapshot s) = .error e ∧ runEncode pack s = s.withStatus (errorStatus e)) := by
  unfold runEncode
  rcases encodeSymbols s.platform.sync pack (snapshot s) with e | v
  · exact .inr ⟨e, rfl, rfl⟩
  · exact .inl ⟨v, rfl, rfl⟩

/-- A byte written to CMD ends in success or in a report, and changes SYM and STATUS at most. -/
theorem encodeCommand_cases (w : Byte) (s : State) :
    (∃ t v, messageTypeOf w = some t ∧ encodeSymbols s.platform.sync (packerOf t) (snapshot s) = .ok v ∧
      encodeCommand w s = (s.withSym v).withStatus doneStatus) ∨
    (∃ t e, messageTypeOf w = some t ∧ encodeSymbols s.platform.sync (packerOf t) (snapshot s) = .error e ∧
      encodeCommand w s = s.withStatus (errorStatus e)) ∨
    (messageTypeOf w = none ∧ encodeCommand w s = s.withStatus (errorStatus .invalidCommand)) := by
  unfold encodeCommand
  rcases hw : messageTypeOf w with _ | t
  · exact .inr (.inr ⟨rfl, rfl⟩)
  · rcases runEncode_cases (packerOf t) s with ⟨v, h1, h2⟩ | ⟨e, h1, h2⟩
    · exact .inl ⟨t, v, rfl, h1, h2⟩
    · exact .inr (.inl ⟨t, e, rfl, h1, h2⟩)

/-- A write of a location that is not CMD changes at most the register that stands there. -/
theorem writeLocation_cases (s : State) (data : Byte) (l : Location) :
    (∃ i, l = .call i ∧ writeLocation s data l = s.withCall i data) ∨
    (l = .callLen ∧ writeLocation s data l = s.withCallLen data) ∨
    (l = .power ∧ writeLocation s data l = s.withPower data) ∨
    (∃ i, l = .loc4 i ∧ writeLocation s data l = s.withLoc4 i data) ∨
    (∃ i, l = .loc6 i ∧ writeLocation s data l = s.withLoc6 i data) ∨
    (∃ i, l = .pfx i ∧ writeLocation s data l = s.withPfx i data) ∨
    (l = .sfx ∧ writeLocation s data l = s.withSfx data) ∨
    (l = .flags ∧ writeLocation s data l = s.withFlags (flagsStored data)) ∨
    (l = .cmd ∧ writeLocation s data l = encodeCommand data s) ∨
    ((l = .status ∨ (∃ i, l = .sym i) ∨ l = .reserved) ∧ writeLocation s data l = s) := by
  cases l <;> simp [writeLocation]

/-- A read of a location looks at the registers alone. -/
theorem readLocation_congr {s t : State} (hc : t.call = s.call) (hl : t.callLen = s.callLen) (hp : t.power = s.power)
    (h4 : t.loc4 = s.loc4) (h6 : t.loc6 = s.loc6) (hx : t.pfx = s.pfx) (hs : t.sfx = s.sfx) (hf : t.flags = s.flags)
    (ht : t.status = s.status) (hy : t.sym = s.sym) (l : Location) : readLocation t l = readLocation s l := by
  cases l <;> simp [readLocation, flagsByte, statusByte, hc, hl, hp, h4, h6, hx, hs, hf, ht, hy]

/-- What the core takes from the host port. -/
theorem fetch_cases (s : State) :
    (s.inbox = [] ∧ fetch s = .idle) ∨
    (∃ rest, s.inbox = .reset :: rest ∧ fetch s = .reset (s.withInbox rest)) ∨
    (∃ w rest i, s.inbox = .word w :: rest ∧ decodeWord w = .ok i ∧ fetch s = .run i (s.withInbox rest)) ∨
    (∃ w rest, s.inbox = .word (.cmd w) :: rest ∧ messageTypeOf w = none ∧
      fetch s = .reserved w (s.withInbox rest)) := by
  unfold fetch
  rcases s.inbox with _ | ⟨_ | _, rest⟩
  · exact .inl ⟨rfl, rfl⟩
  · rename_i w
    rcases w with w | w
    · rcases hw : messageTypeOf w with _ | t
      · exact .inr (.inr (.inr ⟨w, rest, rfl, hw, by simp [decodeCommand, hw]⟩))
      · exact .inr (.inr (.inl ⟨.cmd w, rest, commandOf t, rfl, by simp [decodeWord, decodeCommand, hw],
          by simp [decodeCommand, hw]⟩))
    · exact .inr (.inr (.inl ⟨.host w, rest, decodeHost w, rfl, rfl, rfl⟩))
  · exact .inr (.inl ⟨rest, rfl, rfl⟩)

end Sys2Proof.Machine
end

