-- ==== Sys2Proof/Laws/PerInstr.lean ====
section
/-! SUPPORT. Statements made per instruction: the encoder's word against the row of opcode_table.json. -/

namespace Sys2Proof.Laws.TableRow

/-- The bits of a word and its format's width (R42, R43). -/
def bits : HostWord → Nat × Nat
  | .cmd w => (8, w.toNat)
  | .host w => (17, w.toNat)

/-- An instruction's word has the width of its row, and its bits under the row's mask are the row's match (R45). -/
def Statement : Instr → Prop
  | .enc1 => (bits (encode .enc1)).1 = 8 ∧ (bits (encode .enc1)).2 &&& 0xFF = 0x01
  | .enc2 => (bits (encode .enc2)).1 = 8 ∧ (bits (encode .enc2)).2 &&& 0xFF = 0x02
  | .enc3 => (bits (encode .enc3)).1 = 8 ∧ (bits (encode .enc3)).2 &&& 0xFF = 0x03
  | .wr a d => (bits (encode (.wr a d))).1 = 17 ∧ (bits (encode (.wr a d))).2 &&& 0x10000 = 0x10000
  | .rd a => (bits (encode (.rd a))).1 = 17 ∧ (bits (encode (.rd a))).2 &&& 0x10000 = 0

theorem enc1 : Statement .enc1 := ⟨rfl, rfl⟩

theorem enc2 : Statement .enc2 := ⟨rfl, rfl⟩

theorem enc3 : Statement .enc3 := ⟨rfl, rfl⟩

/-- Bit 16 under the mask, by the number's bits. -/
theorem and_mask (w : BitVec 17) : w.toNat &&& 0x10000 = if w.getLsbD 16 then 0x10000 else 0 := by
  have h : (w &&& 0x10000#17) = if w.getLsbD 16 then 0x10000#17 else 0#17 := by
    ext i hi
    by_cases h16 : i = 16
    · subst h16; by_cases hb : w.getLsbD 16 <;> simp_all
    · have : (0x10000#17)[i] = false := by interval_cases i <;> simp_all
      by_cases hb : w[16] = true <;> simp [hb, this]
  have := congrArg BitVec.toNat h
  rw [BitVec.toNat_and] at this
  by_cases hb : w.getLsbD 16 <;> simp_all

theorem wr (a d : Byte) : Statement (.wr a d) := by
  have h : (1#1 ++ a ++ d).getLsbD 16 = true := by rw [BitVec.getLsbD_append, BitVec.getLsbD_append]; rfl
  exact ⟨rfl, (and_mask (1#1 ++ a ++ d)).trans (by rw [h]; rfl)⟩

theorem rd (a : Byte) : Statement (.rd a) := by
  have h : (0#1 ++ a ++ 0#8).getLsbD 16 = false := by rw [BitVec.getLsbD_append, BitVec.getLsbD_append]; rfl
  exact ⟨rfl, (and_mask (0#1 ++ a ++ 0#8)).trans (by rw [h]; rfl)⟩

end Sys2Proof.Laws.TableRow
end

