-- ==== Sys2Proof/Laws/Step.lean ====
section
/-! SUPPORT. What an instruction and a step can do, said once. -/

namespace Sys2Proof.Machine

/-- The one offset of CMD (R31). -/
theorem locationAt_eq_cmd {a : Byte} (h : locationAt a = .cmd) : a = 0x1B := by
  revert h; revert a; decide +kernel

/-- All that an instruction can do: it answers a next state, which is the given one but for what the case names; and the
commands of the middle cases are the instruction's own, by its name or by the byte it writes to CMD. -/
theorem exec_cases (i : Instr) (s t : State) (h : exec i s = .next t) :
    t = s ∨
    (∃ k v, (i = commandOf k ∨ ∃ d, i = .wr 0x1B d ∧ messageTypeOf d = some k) ∧
      encodeSymbols s.platform.sync (packerOf k) (snapshot s) = .ok v ∧ t = (s.withSym v).withStatus doneStatus) ∨
    (∃ e, ((∃ k, i = commandOf k) ∨ ∃ d, i = .wr 0x1B d) ∧ (StageError e ∨ e = .invalidCommand) ∧
      t = s.withStatus (errorStatus e)) ∨
    (∃ a d, i = .wr a d ∧ locationAt a ≠ .cmd ∧ t = writeLocation s d (locationAt a)) ∨
    (∃ a, i = .rd a ∧ t = s.withResponse (some (windowRead s a))) := by
  have run (k : MessageType) (hi : i = commandOf k) (ht : t = unlessBusy s (runEncode (packerOf k) s)) :
      t = s ∨
      (∃ k v, (i = commandOf k ∨ ∃ d, i = .wr 0x1B d ∧ messageTypeOf d = some k) ∧
        encodeSymbols s.platform.sync (packerOf k) (snapshot s) = .ok v ∧ t = (s.withSym v).withStatus doneStatus) ∨
      (∃ e, ((∃ k, i = commandOf k) ∨ ∃ d, i = .wr 0x1B d) ∧ (StageError e ∨ e = .invalidCommand) ∧
        t = s.withStatus (errorStatus e)) := by
    rcases unlessBusy_cases s (runEncode (packerOf k) s) with ⟨_, hb⟩ | ⟨_, hb⟩
    · exact .inl (ht.trans hb)
    · rcases runEncode_cases (packerOf k) s with ⟨v, hv, hr⟩ | ⟨e, he, hr⟩
      · exact .inr (.inl ⟨k, v, .inl hi, hv, (ht.trans hb).trans hr⟩)
      · exact .inr (.inr ⟨e, .inl ⟨k, hi⟩, .inl (encodeSymbols_error he), (ht.trans hb).trans hr⟩)
  cases i with
  | enc1 => injection h with h; exact (run .type1 rfl h.symm).imp id (Or.imp id Or.inl)
  | enc2 => injection h with h; exact (run .type2 rfl h.symm).imp id (Or.imp id Or.inl)
  | enc3 => injection h with h; exact (run .type3 rfl h.symm).imp id (Or.imp id Or.inl)
  | rd a => injection h with h; exact .inr (.inr (.inr (.inr ⟨a, rfl, h.symm⟩)))
  | wr a d =>
    injection h with h
    unfold windowWrite at h
    rcases unlessBusy_cases s (writeLocation s d (locationAt a)) with ⟨_, hb⟩ | ⟨_, hb⟩
    · exact .inl (h.symm.trans hb)
    · have ht := h.symm.trans hb
      by_cases hc : locationAt a = .cmd
      · obtain rfl := locationAt_eq_cmd hc
        rw [hc, writeLocation] at ht
        rcases encodeCommand_cases d s with ⟨k, v, hk, hv, he⟩ | ⟨k, e, _, hr, he⟩ | ⟨_, he⟩
        · exact .inr (.inl ⟨k, v, .inr ⟨d, rfl, hk⟩, hv, ht.trans he⟩)
        · exact .inr (.inr (.inl ⟨e, .inr ⟨d, rfl⟩, .inl (encodeSymbols_error hr), ht.trans he⟩))
        · exact .inr (.inr (.inl ⟨_, .inr ⟨d, rfl⟩, .inr rfl, ht.trans he⟩))
      · exact .inr (.inr (.inr (.inl ⟨a, d, rfl, hc, ht⟩)))

/-- All that a step can do. -/
theorem step_cases (s : State) :
    (s.inbox = [] ∧ step s = .next s) ∨
    (∃ rest, s.inbox = .reset :: rest ∧ step s = .next (State.afterReset s.platform (s.resetCount + 1) rest)) ∨
    (∃ w rest i, s.inbox = .word w :: rest ∧ decodeWord w = .ok i ∧ step s = exec i (s.withInbox rest)) ∨
    (∃ w rest, s.inbox = .word (.cmd w) :: rest ∧ messageTypeOf w = none ∧
      step s = .next (reservedCommand w (s.withInbox rest))) := by
  rcases fetch_cases s with ⟨h, hf⟩ | ⟨rest, h, hf⟩ | ⟨w, rest, i, h, hd, hf⟩ | ⟨w, rest, h, hd, hf⟩
  · exact .inl ⟨h, by simp [step, hf]⟩
  · exact .inr (.inl ⟨rest, h, by simp [step, hf, applyReset]⟩)
  · exact .inr (.inr (.inl ⟨w, rest, i, h, hd, by simp [step, hf]⟩))
  · exact .inr (.inr (.inr ⟨w, rest, h, hd, by simp [step, hf]⟩))

end Sys2Proof.Machine
end

