-- ==== Sys2Proof/Tests/Slice0.lean ====
section
/-! SUPPORT. The model's own tests: expected values are the spec's (95_test_vectors.md and the worked examples of the
rules, named in each comment), and a witness for the hypotheses of every statement that has some. -/

namespace Sys2Proof.Tests

open Sys2Proof Sys2Proof.Machine Sys2Proof.Safety

/- One theorem at a time: each waits for the kernel, and all at once they take a thread each. -/
set_option Elab.async false

/-! ## WellFormed refuses an ill-formed term for each check -/

theorem test_wf_index_past_register : (ScriptAction.wr (.named .call 10) 0).wellFormed = false := by decide
theorem test_wf_offset_past_window : (ScriptAction.rd (.offset 256) none).wellFormed = false := by decide
theorem test_wf_value_past_byte : (ScriptAction.wr (.named .power 0) 256).wellFormed = false := by decide
theorem test_wf_expected_past_byte : (ScriptAction.rd (.named .status 0) (some 256)).wellFormed = false := by decide
theorem test_wf_text_past_register : (ScriptAction.wrs .pfx ['P', 'J', '4', 'X']).wellFormed = false := by decide
theorem test_wf_text_not_ascii : (ScriptAction.wrs .pfx ['é']).wellFormed = false := by decide
theorem test_wf_setcall_too_long :
    (ScriptAction.setcall ['K', '1', 'A', 'B', 'C', 'D', 'E', 'F', 'G', 'H', 'I']).wellFormed = false := by decide
theorem test_wf_setcall_not_ascii : (ScriptAction.setcall ['é']).wellFormed = false := by decide
theorem test_wf_start_past_byte : (ScriptAction.start 256).wellFormed = false := by decide
theorem test_wf_instructions : (Instr.wr 0xFF 0xFF).wellFormed = true ∧ (Instr.rd 0xFF).wellFormed = true := by decide

/-! ## Decoding: every constructor from a word written out from R42, R43 and R45 -/

theorem test_decode_enc1 : decodeWord (.cmd 0b00000001) = .ok .enc1 := by decide
theorem test_decode_enc2 : decodeWord (.cmd 0b00000010) = .ok .enc2 := by decide
theorem test_decode_enc3 : decodeWord (.cmd 0b00000011) = .ok .enc3 := by decide
/-- `WR CALL_LEN, 0x05` is 0x10A05 (R48): 1 00001010 00000101. -/
theorem test_decode_wr : decodeWord (.host 0b10000101000000101) = .ok (.wr 0x0A 0x05) := by decide
/-- `RD STATUS` is 0x01C00 (R108): 0 00011100 00000000. -/
theorem test_decode_rd : decodeWord (.host 0b00001110000000000) = .ok (.rd 0x1C) := by decide
/-- RD ignores DATA (R43). -/
theorem test_decode_rd_ignores_data : decodeWord (.host 0b00001110011111111) = .ok (.rd 0x1C) := by decide
/-- The reserved words of R46's worked example. -/
theorem test_decode_reserved : decodeWord (.cmd 0x00) = .error (.reservedCommand 0x00) ∧
    decodeWord (.cmd 0x05) = .error (.reservedCommand 0x05) ∧
    decodeWord (.cmd 0x83) = .error (.reservedCommand 0x83) := by decide
theorem test_decode_packets : decodeBytes [0x05, 0x0A, 0x01] = .ok (.wr 0x0A 0x05) ∧
    decodeBytes [0x05, 0x0A, 0x03] = .error (.paddingNotZero 0x03) ∧ decodeBytes [] = .error (.badLength 0) ∧
    decodeBytes [0x01, 0x02] = .error (.badLength 2) := by decide
theorem test_table_words : decodeTableWord 8 0x02 = some .enc2 ∧ decodeTableWord 17 0x10B25 = some (.wr 0x0B 37) ∧
    decodeTableWord 24 0x02000 = some (.rd 0x20) ∧ decodeTableWord 8 0x04 = none := by decide
/-- The HOST encodings R48 prints for `SETCALL "K1ABC"`. -/
theorem test_setcall_expansion : (ScriptAction.setcall ['K', '1', 'A', 'B', 'C']).expand.map encode =
    [.host 0x1004B, .host 0x10131, .host 0x10241, .host 0x10342, .host 0x10443, .host 0x10A05] := by decide
theorem test_rdsym_ends : (ScriptAction.rdsym.expand.getLast?) = some (.rd 0xC1) := by decide +kernel

/-! ## The stages -/

/-- Section 2.1. -/
theorem test_code : [0x30, 0x39, 0x41, 0x4B, 0x5A, 0x20, 0x61, 0x2F, 0x00, 0x40, 0x5B, 0xFF].map (fun b => code b) =
    [0, 9, 10, 20, 35, 36, 255, 255, 255, 255, 255, 255] := by decide

/-- Section 2.2: "K1ABC" shifts, "w1abc" does not, "K1A-C" forces position 5. -/
theorem test_normCall : normCall #v[0x4B, 0x31, 0x41, 0x42, 0x43, 0, 0, 0, 0, 0] 5 = #v[0x20, 0x4B, 0x31, 0x41, 0x42, 0x43] ∧
    normCall #v[0x77, 0x31, 0x61, 0x62, 0x63, 0, 0, 0, 0, 0] 5 = #v[0x57, 0x31, 0x41, 0x42, 0x43, 0x20] ∧
    normCall #v[0x4B, 0x31, 0x41, 0x2D, 0x43, 0, 0, 0, 0, 0] 5 = #v[0x20, 0x4B, 0x31, 0x41, 0x20, 0x20] := by
  decide +kernel

/-- Section 2.2: "fn42", and "SA00" replaced whole. -/
theorem test_normLoc : normLoc #v[0x66, 0x6E, 0x34, 0x32] = #v[0x46, 0x4E, 0x34, 0x32] ∧
    normLoc #v[0x53, 0x41, 0x30, 0x30] = #v[0x41, 0x41, 0x30, 0x30] := by decide +kernel

/-- Section 2.3: " K1ABC", and " K1AB2" refused. -/
theorem test_packN : packN #v[0x20, 0x4B, 0x31, 0x41, 0x42, 0x43] = .ok 0xF70C238#28 ∧
    packN #v[0x20, 0x4B, 0x31, 0x41, 0x42, 0x32] = .error .invalidCharacter := by decide +kernel

/-- Sections 2.4, 2.5 and 2.7: the truncated fields. -/
theorem test_fields : locVal #v[0x46, 0x4E, 0x34, 0x32] = 22632 ∧ trunc22 (pfxField 32767 63) = 0#22 ∧
    trunc22 (pfxField 32768 37) = 103#22 ∧ trunc22 (hashField 0xE995 30) = 0x34CAA1#22 ∧
    trunc22 (hashField 0 255) = 0x3FFF40#22 := by decide +kernel

/-- Section 2.6: "PJ4/K1ABC", "K/7" and "ABC/VK3ABC". -/
theorem test_hash16 : hash16 [0x50, 0x4A, 0x34, 0x2F, 0x4B, 0x31, 0x41, 0x42, 0x43] = .ok 0x4D17#16 ∧
    hash16 [0x4B, 0x2F, 0x37] = .ok 0xE84E#16 ∧
    hash16 [0x41, 0x42, 0x43, 0x2F, 0x56, 0x4B, 0x33, 0x41, 0x42, 0x43] = .ok 0xDF82#16 ∧
    hash16 [0x2F, 0x37] = .error .invalidCallSign := by decide +kernel

/-- The worked examples of R81 and R82, "PJ4/K1ABC". -/
theorem test_hash_steps : seeded [0x50, 0x4A, 0x34, 0x2F, 0x4B, 0x31, 0x41, 0x42, 0x43] =
      ⟨0x0DE209DA, 0x20EEF0D5, 0xDEADBFCD⟩ ∧
    hash32 [0x50, 0x4A, 0x34, 0x2F, 0x4B, 0x31, 0x41, 0x42, 0x43] = ⟨0x00768511, 0x6EA6ACAB, 0xE1B14D17⟩ := by
  decide +kernel

/-- R75's worked example and the sixth row of section 2.8. -/
theorem test_serialize : serialize ⟨0xF70C238, 0x2C3465⟩ = #v[0xF7, 0x0C, 0x23, 0x8B, 0x0D, 0x19, 0x40, 0, 0, 0, 0] ∧
    serialize ⟨1, 1⟩ = #v[0, 0, 0, 0x10, 0, 0, 0x40, 0, 0, 0, 0] := by decide +kernel

/-- R87's first ten steps for F7 0C 23 8B 0D 19 40 00 00 00 00. -/
theorem test_convEncode : ((convEncode #v[0xF7, 0x0C, 0x23, 0x8B, 0x0D, 0x19, 0x40, 0, 0, 0, 0]).toList.take 20).map Bool.toNat =
    [1, 1, 1, 0, 1, 1, 1, 1, 1, 0, 0, 0, 1, 1, 1, 0, 0, 1, 0, 0] := by decide +kernel

/-- Section 2.10: only `s[81]` set gives only `d[1]` set. -/
theorem test_interleave : (interleave ((Vector.replicate 162 false).set 81 true)).toList =
    ((Vector.replicate 162 false).set 1 true).toList := by decide +kernel

/-- R98: 63 ones, and the vector's last six entries. -/
theorem test_sync : syncVector.toList.count true = 63 ∧
    (syncVector.toList.drop 156).map Bool.toNat = [0, 1, 1, 0, 0, 0] := by decide +kernel

/-! ## One step -/

/-- A state after reset with these operands. -/
def given (call : Vector Byte 10) (callLen : Byte) (loc4 : Vector Byte 4) (power : Byte) (loc6 : Vector Byte 6)
    (pfx : Vector Byte 3) (sfx flags : Byte) : State :=
  { State.reset with call := call, callLen := callLen, loc4 := loc4, power := power, loc6 := loc6, pfx := pfx, sfx := sfx,
                     flags := flags }

/-- "K1ABC", "FN42", 37, "FN42AX", "PJ4", suffix 7. -/
def k1abc (flags : Byte) : State :=
  given #v[0x4B, 0x31, 0x41, 0x42, 0x43, 0, 0, 0, 0, 0] 5 #v[0x46, 0x4E, 0x34, 0x32] 37
    #v[0x46, 0x4E, 0x34, 0x32, 0x41, 0x58] #v[0x50, 0x4A, 0x34] 7 flags

/-- The first symbols of a next state. -/
def firstSymbols (n : Nat) : Host.Outcome State Fault Refusal → Option (Byte × List Nat)
  | .next t => some (t.status, (t.sym.toList.take n).map BitVec.toNat)
  | _ => none

/-- Vector V-E1-1. -/
theorem test_enc1 : firstSymbols 12 (exec .enc1 (k1abc 0)) = some (0x01, [3, 3, 0, 0, 2, 0, 0, 0, 1, 0, 2, 0]) := by
  decide +kernel
/-- V-E1-1 on a core whose SYNC is all zeros: the sync bits of R98's first row are gone and the parity bits stay (R97). -/
theorem test_enc1_other_sync :
    firstSymbols 12 (exec .enc1 { k1abc 0 with platform := ⟨Vector.replicate 162 false, 0x4000⟩ }) =
      some (0x01, [2, 2, 0, 0, 2, 0, 0, 0, 0, 0, 2, 0]) := by decide +kernel
/-- R30 with the window at 0x4000. -/
theorem test_window_placement : readAt 0x4000 0x401C = some (.rd 0x1C) ∧ writeAt 0x4000 0x40FF 7 = some (.wr 0xFF 7) ∧
    readAt 0x4000 0x4100 = none ∧ readAt 0x4000 0x3FFF = none := by decide
/-- X6: a call sign longer than the field. -/
theorem test_enc1_capacity : exec .enc1 { k1abc 0 with callLen := 11 } =
    .next { k1abc 0 with callLen := 11, status := 0x23 } := rfl
/-- Vector V-E2-1, program P2. -/
theorem test_enc2_suffix : firstSymbols 12 (exec .enc2 (k1abc 1)) = some (0x01, [3, 3, 0, 0, 2, 2, 0, 0, 1, 0, 2, 2]) := by
  decide +kernel
/-- Vector V-E2-2. -/
theorem test_enc2_pfx : firstSymbols 12 (exec .enc2 (k1abc 0)) = some (0x01, [3, 1, 0, 2, 2, 0, 0, 0, 1, 0, 2, 2]) := by
  decide +kernel
/-- Vector V-E3-1. -/
theorem test_enc3 : firstSymbols 12 (exec .enc3 (k1abc 0)) = some (0x01, [3, 3, 2, 0, 2, 2, 0, 2, 3, 0, 2, 2]) := by
  decide +kernel
/-- X10: a lowercase letter in LOC6. -/
theorem test_enc3_lowercase : (firstSymbols 0 (exec .enc3 { k1abc 0 with
    loc6 := #v[0x46, 0x4E, 0x34, 0x32, 0x61, 0x78] })) = some (0x13, []) := by decide +kernel
/-- Program P5: FLAGS keeps bit 0, STATUS ignores writes. -/
theorem test_wr : exec (.wr 0x1A 0xFF) State.reset = .next { State.reset with flags := 0x01 } ∧
    exec (.wr 0x1C 0xFF) State.reset = .next State.reset := ⟨rfl, rfl⟩
/-- Program P4: a reserved word written to CMD. -/
theorem test_wr_reserved_command : exec (.wr 0x1B 0x83) State.reset = .next { State.reset with status := 0x43 } := rfl
/-- Program P1: the locator reads back. -/
theorem test_rd : exec (.rd 0x0D) (k1abc 0) = .next { k1abc 0 with response := some 0x4E } := rfl
/-- R108: FLAGS reads with bits 7:1 zero, a reserved offset reads 0. -/
theorem test_rd_masks : windowRead (k1abc 0xFF) 0x1A = 0x01 ∧ windowRead (k1abc 0) 0xC2 = 0x00 := by decide +kernel
theorem test_step_runs_placed_word : step ((k1abc 0).withFetchWord 17 0x10B40) = .next { k1abc 0 with power := 0x40 } := rfl
theorem test_step_reset_event : (match step { k1abc 1 with inbox := [.reset] } with
    | .next t => decide (t.callLen = 0 ∧ t.resetCount = 1) | _ => false) = true := by decide +kernel

/-! ## Witnesses: the hypotheses of each statement hold together somewhere, at boundary values -/

theorem witness_DecodeOfEncode : ∀ i ∈ [Instr.enc1, .enc2, .enc3, .wr 0xFF 0xFF, .rd 0xFF], i.wellFormed = true := by decide
theorem witness_EncodeOfDecode : decodeWord (.host 0x1FFFF) = .ok (.wr 0xFF 0xFF) ∧
    decodeWord (.host 0x0FFFF) = .ok (.rd 0xFF) ∧ decodeWord (.cmd 0x03) = .ok .enc3 := by decide
theorem witness_StepRuns : (State.reset.withInbox [.word (.cmd 1)]).inbox = .word (.cmd 1) :: [] ∧
    Instr.enc1.wellFormed = true ∧ decodeWord (.cmd 1) = .ok .enc1 := ⟨rfl, rfl, rfl⟩
theorem witness_StepRuns_reserved : (State.reset.withInbox [.word (.cmd 0xFF)]).inbox = .word (.cmd 0xFF) :: [] ∧
    decodeWord (.cmd 0xFF) = .error (.reservedCommand 0xFF) := ⟨rfl, rfl⟩
theorem witness_PlacedWord : decodeTableWord 8 0x01 = some .enc1 ∧ decodeTableWord 17 0x1FFFF = some (.wr 0xFF 0xFF) ∧
    decodeTableWord 24 0x0FF00 = some (.rd 0xFF) := by decide
theorem witness_ResetEvent : (State.reset.withInbox [.reset, .reset]).inbox = .reset :: [.reset] := rfl
theorem witness_FirstCommand : ∀ w ∈ [0x01, 0x02, (0x03 : Byte)], w = 0x01 ∨ w = 0x02 ∨ w = 0x03 := by decide
theorem witness_EveryStepKeeps : Legal (k1abc 1) ∧ step (k1abc 1) = .next (k1abc 1) := ⟨⟨rfl, rfl⟩, rfl⟩
theorem witness_RegistersChange :
    step ((k1abc 0).withFetchWord 17 0x11AFF) = .next { k1abc 0 with flags := 0x01 } ∧
    ((k1abc 0).withFetchWord 17 0x11AFF).inbox.head? ≠ some .reset := ⟨rfl, by decide +kernel⟩
theorem witness_SyncIsTheSame : (match step ((k1abc 0).withFetchWord 8 0x01) with
    | .next t => decide (t.status = 0x01 ∧ t.platform = Platform.standard) | _ => false) = true := by decide +kernel
theorem witness_BaseOnly : 0x40FF = 0x4000 + (0xFF : Byte).toNat ∧ step (k1abc 0) = .next (k1abc 0) :=
  ⟨by decide, rfl⟩
theorem witness_CommandsChangeOnly : Spec.IsCommand .enc1 ∧
    exec .enc1 State.reset = .next { State.reset with status := 0x13 } ∧
    statusErr { State.reset with status := 0x13 } = true ∧
    ((0x1B : Byte) ≠ 0x1C ∧ (0x1B : Byte).toNat < 0x20) ∧ ((0xC2 : Byte) ≠ 0x1C ∧ 0xC1 < (0xC2 : Byte).toNat) :=
  ⟨.inl rfl, rfl, rfl, by decide, by decide⟩
theorem witness_OperandWrite : statusBusy (k1abc 0) = false ∧ (0x19 : Byte).toNat ≤ 0x19 ∧ (0x00 : Byte) ≠ 0x19 := by
  decide +kernel
theorem witness_FlagsWrite : statusBusy (k1abc 0) = false ∧ 1 ≤ 1 ∧ 1 ≤ 7 := by decide +kernel
theorem witness_Reserved : (0x1D ≤ (0x1D : Byte).toNat ∧ (0x1F : Byte).toNat ≤ 0x1F) ∧ 0xC2 ≤ (0xC2 : Byte).toNat ∧
    0xC2 ≤ (0xFF : Byte).toNat ∧ (0x1C : Byte).toNat = 0x1C ∧ 0x20 ≤ (0x20 : Byte).toNat ∧ (0xC1 : Byte).toNat ≤ 0xC1 ∧
    (0xFF : Byte).getLsbD 0 = (0x01 : Byte).getLsbD 0 := by decide
theorem witness_Busy : statusBusy { k1abc 0 with status := 0x04 } = true := rfl
theorem witness_Read : Legal (k1abc 1) ∧ (0x09 : Byte).toNat < 10 ∧ (0x0F : Byte).toNat = 0x0C + 3 ∧
    (0x15 : Byte).toNat = 0x10 + 5 ∧ (0x18 : Byte).toNat = 0x16 + 2 ∧ (0xC1 : Byte).toNat = 0x20 + 161 ∧
    (0x20 : Byte).toNat = 0x20 + 0 ∧ 0xC2 ≤ (0xC2 : Byte).toNat ∧ (0x1F : Byte).toNat ≤ 0x1F :=
  ⟨⟨rfl, rfl⟩, by decide, by decide, by decide, by decide, by decide, by decide, by decide, by decide⟩
theorem witness_ReadsAreFree : exec (.rd 0x1C) (k1abc 0) = .next { k1abc 0 with response := some 0x00 } ∧
    (0x1A : Byte) ≠ 0x1B ∧ exec (.wr 0x1A 0x01) (k1abc 0) = .next (k1abc 1) := ⟨rfl, by decide, rfl⟩

/-- The normalized call sign of a state. -/
def cs (s : State) : Vector Byte 6 := normCall s.call s.callLen

theorem witness_Enc1 : statusBusy (k1abc 0) = false ∧ (k1abc 0).callLen.toNat ≤ 10 ∧ Spec.Packs (cs (k1abc 0)) ∧
    Spec.LocatorPacks (normLoc (k1abc 0).loc4) := by decide +kernel
theorem witness_Enc1_full_length : ∀ s ∈ [({ k1abc 0 with callLen := 10 } : State)],
    s.callLen.toNat ≤ 10 ∧ Spec.Packs (cs s) := by decide +kernel
theorem witness_Enc1_capacity : 10 < ({ k1abc 0 with callLen := 11 } : State).callLen.toNat := by decide +kernel
theorem witness_Enc1_callSign : State.reset.callLen.toNat ≤ 10 ∧ ¬ Spec.Packs (cs State.reset) := by decide +kernel
theorem witness_Enc1_locator : ∀ s ∈ [({ k1abc 0 with loc4 := #v[0x31, 0x32, 0x33, 0x34] } : State)],
    s.callLen.toNat ≤ 10 ∧ Spec.Packs (cs s) ∧ ¬ Spec.LocatorPacks (normLoc s.loc4) := by decide +kernel
theorem witness_Enc2_suffix : ∀ s ∈ [({ k1abc 1 with sfx := 81 } : State)], statusBusy s = false ∧ s.callLen.toNat ≤ 10 ∧
    Spec.Packs (cs s) ∧ s.flags.getLsbD 0 = true ∧ s.sfx.toNat ≤ 81 := by decide +kernel
theorem witness_Enc2_suffix_error : ∀ s ∈ [({ k1abc 1 with sfx := 82 } : State)], s.callLen.toNat ≤ 10 ∧
    Spec.Packs (cs s) ∧ s.flags.getLsbD 0 = true ∧ 81 < s.sfx.toNat := by decide +kernel
/-- "NYM" and "NYN" stand on the two sides of R72's boundary. -/
theorem witness_Enc2_pfx : ∀ s ∈ [({ k1abc 0 with pfx := #v[0x4E, 0x59, 0x4D] } : State)], s.callLen.toNat ≤ 10 ∧
    Spec.Packs (cs s) ∧ s.flags.getLsbD 0 = false ∧ Spec.PfxPacks s.pfx ∧ Spec.gOf s.pfx = 32767 ∧
    Spec.gOf #v[0x4E, 0x59, 0x4E] = 32768 := by decide +kernel
theorem witness_Enc2_pfx_error : ∀ s ∈ [({ k1abc 0 with pfx := #v[0x70, 0x6A, 0x34] } : State)], s.callLen.toNat ≤ 10 ∧
    Spec.Packs (cs s) ∧ s.flags.getLsbD 0 = false ∧ ¬ Spec.PfxPacks s.pfx := by decide +kernel
theorem witness_Enc3 : ∀ s ∈ [k1abc 0, { k1abc 1 with callLen := 8 }, { k1abc 1 with callLen := 1 }],
    statusBusy s = false ∧ s.callLen.toNat ≤ 10 ∧ Spec.Packs (Spec.loc6Chars s.loc6) ∧
    (s.flags.getLsbD 0 = true → s.sfx.toNat ≤ 81) ∧ 3 ≤ (Spec.compOf s).length ∧ (Spec.compOf s).length ≤ 10 := by
  decide +kernel
theorem witness_Enc3_loc6 : State.reset.callLen.toNat ≤ 10 ∧ ¬ Spec.Packs (Spec.loc6Chars State.reset.loc6) := by
  decide +kernel
theorem witness_Enc3_suffix_error : ∀ s ∈ [({ k1abc 1 with sfx := 82 } : State)], s.callLen.toNat ≤ 10 ∧
    Spec.Packs (Spec.loc6Chars s.loc6) ∧ s.flags.getLsbD 0 = true ∧ 81 < s.sfx.toNat := by decide +kernel
/-- X11 and X12: composite strings of 11 and of 2 bytes. -/
theorem witness_Enc3_length_error : ∀ s ∈ [({ k1abc 0 with callLen := 7 } : State), { k1abc 1 with callLen := 0 }],
    s.callLen.toNat ≤ 10 ∧ Spec.Packs (Spec.loc6Chars s.loc6) ∧ (s.flags.getLsbD 0 = true → s.sfx.toNat ≤ 81) ∧
    ((Spec.compOf s).length < 3 ∨ 10 < (Spec.compOf s).length) := by decide +kernel
theorem witness_FirstError : statusBusy (k1abc 0) = false := by decide +kernel
theorem witness_ErrorReport : statusBusy State.reset = false ∧ messageTypeOf 0x83 = none ∧
    messageTypeOf 0x01 = some .type1 ∧
    encodeSymbols State.reset.platform.sync (packerOf .type1) (snapshot State.reset) = .error .invalidCharacter :=
  ⟨rfl, rfl, rfl, rfl⟩
/-- X5: "ZZ99". -/
theorem witness_InvalidLocator : ∀ s ∈ [({ k1abc 0 with loc4 := #v[0x5A, 0x5A, 0x39, 0x39] } : State)],
    statusBusy s = false ∧ s.callLen.toNat ≤ 10 ∧ Spec.Packs (cs s) ∧
    (∃ i : Fin 4, locatorCharValid (upper s.loc4[i]) = false) := by decide +kernel
theorem witness_InvalidLocator_status : exec (.wr 0x1B 0x00) State.reset = .next { State.reset with status := 0x43 } := rfl
theorem witness_ReservedWord : statusBusy (k1abc 0) = false ∧ (0x04 : Byte) ≠ 0x01 ∧ (0x04 : Byte) ≠ 0x02 ∧
    (0x04 : Byte) ≠ 0x03 := by decide +kernel

/-- Another state for a command that ignores LOC4 or LOC6, one of PFX and SFX, and the upper bits of FLAGS. -/
def other (loc4 : Vector Byte 4) (loc6 : Vector Byte 6) (pfx : Vector Byte 3) (sfx flags : Byte) : State :=
  given #v[0x4B, 0x31, 0x41, 0x42, 0x43, 0, 0, 0, 0, 0] 5 loc4 37 loc6 pfx sfx flags

theorem witness_Ignore_enc1 : ∀ t ∈ [other #v[0x46, 0x4E, 0x34, 0x32] (Vector.replicate 6 1) #v[1, 2, 3] 99 0x01],
    Spec.IsCommand .enc1 ∧ statusBusy (k1abc 0) = false ∧ statusBusy t = false ∧ t.call = (k1abc 0).call ∧
    t.callLen = (k1abc 0).callLen ∧ t.power = (k1abc 0).power ∧ t.loc4 = (k1abc 0).loc4 := by decide +kernel
theorem witness_Ignore_enc2 :
    ∀ t ∈ [other (Vector.replicate 4 1) (Vector.replicate 6 1) #v[1, 2, 3] 7 0xFF], Spec.IsCommand .enc2 ∧
    statusBusy t = false ∧ t.call = (k1abc 1).call ∧ t.callLen = (k1abc 1).callLen ∧ t.power = (k1abc 1).power ∧
    t.flags.getLsbD 0 = (k1abc 1).flags.getLsbD 0 ∧ ((k1abc 1).flags.getLsbD 0 = true → t.sfx = (k1abc 1).sfx) := by
  decide +kernel
theorem witness_Ignore_enc3 :
    ∀ t ∈ [other (Vector.replicate 4 1) #v[0x46, 0x4E, 0x34, 0x32, 0x41, 0x58] #v[0x50, 0x4A, 0x34] 99 0xFE],
    Spec.IsCommand .enc3 ∧ statusBusy t = false ∧ t.call = (k1abc 0).call ∧ t.callLen = (k1abc 0).callLen ∧
    t.power = (k1abc 0).power ∧ t.flags.getLsbD 0 = (k1abc 0).flags.getLsbD 0 ∧
    ((k1abc 0).flags.getLsbD 0 = false → t.pfx = (k1abc 0).pfx) ∧ t.loc6 = (k1abc 0).loc6 := by decide +kernel
theorem witness_Ignore_same_sym : (other (Vector.replicate 4 1) (Vector.replicate 6 1) #v[1, 2, 3] 7 1).sym = (k1abc 1).sym ∧
    (other (Vector.replicate 4 1) (Vector.replicate 6 1) #v[1, 2, 3] 7 1).platform.sync = (k1abc 1).platform.sync := ⟨rfl, rfl⟩
theorem witness_Slots : Spec.IsCommand .enc3 ∧ ∀ (k : Nat) (h : k < 10), k < (k1abc 0).callLen.toNat →
    (#v[0x4B, 0x31, 0x41, 0x42, 0x43, 0xFF, 1, 2, 3, 4] : Vector Byte 10)[k] = (k1abc 0).call[k] := by decide +kernel
theorem witness_Stateless : statusBusy State.reset = false ∧ statusBusy { State.reset with status := 0x13 } = false ∧
    snapshot { State.reset with status := 0x13 } = snapshot State.reset ∧
    ({ State.reset with status := 0x13 } : State).platform.sync = State.reset.platform.sync ∧
    exec (.wr 0x1B 0x01) State.reset = .next { State.reset with status := 0x13 } ∧
    exec (.wr 0x1B 0x01) { State.reset with status := 0x13 } = .next { State.reset with status := 0x13 } :=
  ⟨rfl, rfl, rfl, rfl, rfl, rfl⟩

theorem witness_Positions_shift : (10 : Byte).toNat ≤ 10 ∧ isDigit 0x31 = true ∧ isUpper 0x41 = true ∧
    ∀ (k : Nat) (h : k < 10), rawChar #v[0x4B, 0x31, 0x41, 0x42, 0x43, 1, 2, 3, 4, 5] 10 k =
      if k < (10 : Byte).toNat then (#v[0x4B, 0x31, 0x41, 0x42, 0x43, 1, 2, 3, 4, 5] : Vector Byte 10)[k] else 0x00 := by
  decide +kernel
theorem witness_Positions_no_shift : (0 : Byte).toNat ≤ 10 ∧ ¬ (isDigit 0 = true ∧ isUpper 0 = true) ∧
    ∀ (k : Nat) (h : k < 10), rawChar #v[0x4B, 0x31, 0x41, 0x42, 0x43, 1, 2, 3, 4, 5] 0 k =
      if k < (0 : Byte).toNat then (#v[0x4B, 0x31, 0x41, 0x42, 0x43, 1, 2, 3, 4, 5] : Vector Byte 10)[k] else 0x00 := by
  decide +kernel
theorem witness_Guarantee : (normCall (Vector.replicate 10 0) 0)[4] = 0x20 ∧ 3 ≤ 3 ∧ 3 ≤ 5 := by decide +kernel
theorem witness_NormalizingAgain : ∀ (k : Nat) (h : k < 10), k < (5 : Byte).toNat → isLower (k1abc 0).call[k] = false := by
  decide +kernel
/-- 'R' and 'r' are the last letters, 'S' the first beyond. -/
theorem witness_Locator : (∀ b ∈ [0x52, 0x72, 0x39, (0x30 : Byte)], (0x30 ≤ b.toNat ∧ b.toNat ≤ 0x39) ∨
      (0x41 ≤ b.toNat ∧ b.toNat ≤ 0x52) ∨ (0x61 ≤ b.toNat ∧ b.toNat ≤ 0x72)) ∧
    ¬ ((0x30 ≤ (0x53 : Byte).toNat ∧ (0x53 : Byte).toNat ≤ 0x39) ∨ (0x41 ≤ (0x53 : Byte).toNat ∧ (0x53 : Byte).toNat ≤ 0x52) ∨
      (0x61 ≤ (0x53 : Byte).toNat ∧ (0x53 : Byte).toNat ≤ 0x72)) := by decide
theorem witness_PackNFits : packN #v[0x5A, 0x5A, 0x39, 0x5A, 0x5A, 0x5A] = .ok 255090922#28 ∧
    ∀ i : Fin 6, (#v[0x5A, 0x5A, 0x39, 0x5A, 0x5A, 0x5A] : Vector Byte 6)[i] ≠ 0x20 := by decide +kernel
theorem witness_PackNChecks : packN (Vector.replicate 6 0x20) = .error .invalidCharacter := by decide +kernel
theorem witness_LocatorValue : Spec.LocatorPacks #v[0x52, 0x41, 0x39, 0x30] ∧ Spec.LocatorPacks #v[0x41, 0x52, 0x30, 0x39] := by
  decide
theorem witness_PfxValue : pfxValue #v[0x20, 0x20, 0x20] = .ok 50652 ∧ 50652 ≤ 50652 ∧ (60 : Byte).toNat ≤ 60 := by
  decide +kernel
theorem witness_FieldM : (63 : Byte).toNat ≤ 63 ∧ 63 < (64 : Byte).toNat ∧ 32399 ≤ 32399 ∧ 81 ≤ 81 := by decide
theorem witness_Serialized : 0 < 88 ∧ 27 < 28 ∧ ¬ 28 < 28 ∧ 49 < 50 ∧ ¬ 50 < 50 ∧ 87 < 88 := by decide
theorem witness_CompositeLength : ([0x4B, 0x2F] : List Byte).length < 3 ∧ 3 ≤ ([0x4B, 0x2F, 0x37] : List Byte).length ∧
    (List.replicate 10 (0x41 : Byte)).length ≤ 10 ∧ 10 < (List.replicate 11 (0x41 : Byte)).length ∧
    (snapshot { k1abc 0 with callLen := 10 }).callLen.toNat ≤ 10 := by decide +kernel
theorem witness_HashFollows : 3 ≤ ([0x4B, 0x2F, 0x37] : List Byte).length ∧ 2 < 3 ∧
    (List.replicate 10 (0x41 : Byte)).length ≤ 10 := by decide
theorem witness_RevEight : 255 < 256 ∧ 0 < 256 ∧ 7 < 8 := by decide
theorem witness_Convolution : 80 < 81 ∧ 2 * 80 + 1 < 162 ∧ 62 ≤ 161 ∧ 161 < 162 ∧ 50 ≤ 80 ∧ 80 ≤ 80 := by decide
theorem witness_ConsumedBits : ∀ t : Nat, t < 81 →
    inputBit #v[0, 0, 0, 0, 0, 0, 0, 0, 0, 0, 0x7F] t = inputBit (Vector.replicate 11 0) t := by decide +kernel
theorem witness_Interleaver : 161 < 162 ∧ destTable.getD 161 0 = 127 ∧ srcTable.getD 161 0 = 85 := by decide
theorem witness_Symbols : 161 < 162 ∧ (Vector.replicate 162 false)[161] = false ∧ (Vector.replicate 162 true)[161] = true := by
  decide +kernel
/-- Two payloads that differ in the last bit of `m` differ in their streams. -/
theorem test_streams_differ : (symbolsOf syncVector ⟨1, 1⟩).toList ≠ (symbolsOf syncVector ⟨1, 0⟩).toList := by
  decide +kernel
/-- The hypothesis of an injectivity statement is met by equal payloads only: that is what it says. -/
theorem witness_StreamDetermines : symbolsOf syncVector ⟨1, 1⟩ = symbolsOf syncVector ⟨1, 1⟩ := rfl
theorem witness_Setcall : statusBusy (k1abc 0) = false ∧
    (ScriptAction.setcall ['V', 'K', '3', 'A', 'B', 'C', 'D', 'E', 'F', 'G']).wellFormed = true := by decide +kernel

end Sys2Proof.Tests
end

