-- ==== Sys2Proof/Proofs/Scope.lean ====
section
/-! The open parameters of the core (00_scope.md R7): SYNC shows in bit 0 of every symbol and BASE only places the window,
and neither ever changes; and the hasher's words and mixing steps read as arithmetic on numbers (R8). -/

namespace Sys2Proof.Machine

/-! ### SYNC: what a stream carries, and what an instruction leaves of it -/

/-- Bit 0 of each of the 162 symbols is the entry of `sync` (R97). -/
def CarriesSync (sync : SyncVector) (v : SymbolStream) : Prop :=
  ∀ (i : Nat) (h : i < 162), v[i].toNat % 2 = sync[i].toNat

theorem symbol_toNat_mod_two (y b : Bool) : (symbol y b).toNat % 2 = y.toNat := by
  rw [symbol_toNat, Nat.add_mul_mod_self_left, Nat.mod_eq_of_lt y.toNat_lt]

theorem symbolsOf_carriesSync (sync : SyncVector) (p : Payload) : CarriesSync sync (symbolsOf sync p) := by
  intro i h
  rw [symbolsOf, syncMerge_getElem, symbol_toNat_mod_two]

/-- Whatever the packer, a successful ENCODE gives a stream made with the vector it was given (R101). -/
theorem encodeSymbols_carriesSync {sync : SyncVector} {pack : Packer} {o : Snapshot} {v : SymbolStream}
    (h : encodeSymbols sync pack o = .ok v) : CarriesSync sync v := by
  rcases encodeSymbols_cases sync pack o with ⟨_, h'⟩ | ⟨_, p, _, h'⟩ | ⟨_, e, _, h'⟩ <;> rw [h'] at h
  · cases h
  · obtain rfl := Except.ok.inj h
    exact symbolsOf_carriesSync sync p
  · cases h

/-- A write of a location other than CMD reaches neither SYM nor the platform (R32). -/
theorem writeLocation_sym_platform {l : Location} (hl : l ≠ .cmd) (s : State) (d : Byte) :
    (writeLocation s d l).sym = s.sym ∧ (writeLocation s d l).platform = s.platform := by
  cases l with
  | cmd => exact absurd rfl hl
  | call i | callLen | power | loc4 i | loc6 i | pfx i | sfx | flags | status | sym i | reserved => exact ⟨rfl, rfl⟩

/-- What an instruction can do to SYM and to the open parameters. -/
theorem exec_sym_platform {i : Instr} {s t : State} (h : exec i s = .next t) :
    t.platform = s.platform ∧ (t.sym = s.sym ∨ CarriesSync s.platform.sync t.sym) := by
  rcases exec_cases i s t h with rfl | ⟨k, v, _, hv, rfl⟩ | ⟨e, _, _, rfl⟩ | ⟨a, d, _, hl, rfl⟩ | ⟨a, _, rfl⟩
  · exact ⟨rfl, .inl rfl⟩
  · exact ⟨rfl, .inr (encodeSymbols_carriesSync hv)⟩
  · exact ⟨rfl, .inl rfl⟩
  · obtain ⟨hsym, hplatform⟩ := writeLocation_sym_platform hl s d
    exact ⟨hplatform, .inl hsym⟩
  · exact ⟨rfl, .inl rfl⟩

/-- A reserved command word changes STATUS at most (R46, R115). -/
theorem reservedCommand_cases {w : Byte} (hw : messageTypeOf w = none) (s : State) :
    reservedCommand w s = s ∨ reservedCommand w s = s.withStatus (errorStatus .invalidCommand) := by
  have hc : encodeCommand w s = s.withStatus (errorStatus .invalidCommand) := by simp [encodeCommand, hw]
  rw [reservedCommand, hc]
  exact (unlessBusy_cases s _).imp And.right And.right

/-- Settles O55: a step is idle, resets, runs an instruction or reports a reserved word; only an instruction changes SYM
outside a reset, and then to a stream made with the core's own SYNC. -/
theorem syncIsTheSameForEveryMessage : Obligations.SyncIsTheSameForEveryMessage := by
  intro s t h
  rcases step_cases s with ⟨_, hs⟩ | ⟨rest, hin, hs⟩ | ⟨w, rest, i, _, _, hs⟩ | ⟨w, rest, _, hw, hs⟩ <;>
    rw [hs] at h
  · cases h; exact ⟨rfl, .inl rfl⟩
  · cases h; exact ⟨rfl, .inr (.inl (by rw [hin]; rfl))⟩
  · obtain ⟨hplatform, hsym⟩ := exec_sym_platform h
    exact ⟨hplatform, hsym.imp id .inr⟩
  · cases h
    rcases reservedCommand_cases hw (s.withInbox rest) with hr | hr <;> rw [hr] <;> exact ⟨rfl, .inl rfl⟩

/-! ### BASE: the addresses of the window -/

theorem offsetAt_eq_some_iff (base address : Nat) (o : Byte) :
    offsetAt base address = some o ↔ address = hostAddress base o := by
  have ho := o.isLt
  by_cases h : base ≤ address ∧ address < base + 256
  · have hlt : address - base < 256 := by omega
    simp only [offsetAt, hostAddress, h, decide_true, Bool.and_self, if_true, Option.some.injEq,
      ← BitVec.toNat_inj, BitVec.toNat_ofNat, Nat.mod_eq_of_lt hlt]
    omega
  · have : ¬ address = hostAddress base o := by unfold hostAddress; omega
    simp [offsetAt, h, this]

theorem offsetAt_hostAddress (base : Nat) (o : Byte) : offsetAt base (hostAddress base o) = some o :=
  (offsetAt_eq_some_iff base _ o).2 rfl

theorem offsetAt_eq_none_iff (base address : Nat) :
    offsetAt base address = none ↔ address < base ∨ base + 255 < address := by
  simp only [offsetAt, ite_eq_right_iff, reduceCtorEq, imp_false, Bool.and_eq_true, decide_eq_true_eq]
  omega

/-! ### BASE: every operation commutes with moving the window -/

/-- The same core with its window at `b` (R30). -/
def State.withBase (s : State) (b : Nat) : State := { s with platform := ⟨s.platform.sync, b⟩ }

/-- What is fetched, with the window of the state that goes on at `b`. -/
def Fetched.withBase (b : Nat) : Fetched → Fetched
  | .idle => .idle
  | .reset s => .reset (s.withBase b)
  | .run i s => .run i (s.withBase b)
  | .reserved w s => .reserved w (s.withBase b)

@[simp] theorem State.withBase_sync (s : State) (b : Nat) : (s.withBase b).platform.sync = s.platform.sync := rfl
@[simp] theorem State.withBase_inbox (s : State) (b : Nat) : (s.withBase b).inbox = s.inbox := rfl
@[simp] theorem snapshot_withBase (s : State) (b : Nat) : snapshot (s.withBase b) = snapshot s := rfl
@[simp] theorem statusBusy_withBase (s : State) (b : Nat) : statusBusy (s.withBase b) = statusBusy s := rfl

theorem unlessBusy_withBase (s t : State) (b : Nat) :
    unlessBusy (s.withBase b) (t.withBase b) = (unlessBusy s t).withBase b := by
  cases h : statusBusy s <;> simp [h]

theorem runEncode_withBase (pack : Packer) (s : State) (b : Nat) :
    runEncode pack (s.withBase b) = (runEncode pack s).withBase b := by
  unfold runEncode
  rw [State.withBase_sync, snapshot_withBase]
  cases encodeSymbols s.platform.sync pack (snapshot s) <;> rfl

theorem encodeCommand_withBase (w : Byte) (s : State) (b : Nat) :
    encodeCommand w (s.withBase b) = (encodeCommand w s).withBase b := by
  unfold encodeCommand
  cases messageTypeOf w with
  | none => rfl
  | some k => exact runEncode_withBase (packerOf k) s b

theorem writeLocation_withBase (s : State) (d : Byte) (l : Location) (b : Nat) :
    writeLocation (s.withBase b) d l = (writeLocation s d l).withBase b := by
  cases l with
  | cmd => exact encodeCommand_withBase d s b
  | call i | callLen | power | loc4 i | loc6 i | pfx i | sfx | flags | status | sym i | reserved => rfl

theorem windowRead_withBase (s : State) (a : Byte) (b : Nat) : windowRead (s.withBase b) a = windowRead s a :=
  readLocation_congr rfl rfl rfl rfl rfl rfl rfl rfl rfl rfl (locationAt a)

theorem exec_withBase {i : Instr} {s t : State} (h : exec i s = .next t) (b : Nat) :
    exec i (s.withBase b) = .next (t.withBase b) := by
  have command (pack : Packer) (ht : unlessBusy s (runEncode pack s) = t) :
      unlessBusy (s.withBase b) (runEncode pack (s.withBase b)) = t.withBase b := by
    rw [runEncode_withBase, unlessBusy_withBase, ht]
  cases i with
  | enc1 => injection h with h; exact congrArg _ (command packEnc1 h)
  | enc2 => injection h with h; exact congrArg _ (command packEnc2 h)
  | enc3 => injection h with h; exact congrArg _ (command packEnc3 h)
  | wr a d =>
    injection h with h
    simp only [exec, execWr, ← h, windowWrite, writeLocation_withBase, unlessBusy_withBase]
  | rd a =>
    injection h with h
    simp only [exec, execRd, windowRead_withBase, ← h]
    rfl

theorem fetch_withBase (s : State) (b : Nat) : fetch (s.withBase b) = (fetch s).withBase b := by
  unfold fetch
  rw [State.withBase_inbox]
  rcases s.inbox with _ | ⟨(w | w) | _, rest⟩
  · rfl
  · dsimp only
    cases decodeCommand w <;> rfl
  · rfl
  · rfl

theorem step_withBase {s t : State} (h : step s = .next t) (b : Nat) :
    step (s.withBase b) = .next (t.withBase b) := by
  unfold step at h ⊢
  rw [fetch_withBase]
  cases hf : fetch s <;> rw [hf] at h <;> dsimp only [Fetched.withBase] at h ⊢
  case idle => cases h; rfl
  case reset s' => cases h; rfl
  case run i s' => exact exec_withBase h b
  case reserved w s' =>
    cases h
    rw [reservedCommand, encodeCommand_withBase, unlessBusy_withBase, reservedCommand]

/-- Settles O56: the window is the 256 addresses from BASE up, and moving it commutes with every step. -/
theorem baseOnlyPlacesTheWindow : Obligations.BaseOnlyPlacesTheWindow := by
  refine ⟨offsetAt_eq_some_iff, offsetAt_eq_none_iff, ?_, fun s t b h => step_withBase h b⟩
  rintro base _ o d rfl
  have ho : offsetAt base (base + o.toNat) = some o := offsetAt_hostAddress base o
  simp [readAt, writeAt, ho]

/-! ### The hasher as arithmetic on numbers -/

theorem toNat_append_eq_add {m n : Nat} (x : BitVec m) (y : BitVec n) :
    (x ++ y).toNat = x.toNat * 2 ^ n + y.toNat := by
  rw [BitVec.toNat_append, ← Nat.shiftLeft_add_eq_or_of_lt y.isLt, Nat.shiftLeft_eq]

theorem paddedByte_toNat (comp : List Byte) (i : Nat) :
    (paddedByte comp i).toNat = if h : i < comp.length then comp[i].toNat else 0 := by
  by_cases h : i < comp.length <;> simp [paddedByte, h]

/-- R37: byte `4w` of the string is the lowest of its word. -/
theorem inputWord_toNat (comp : List Byte) (w : Nat) : (inputWord comp w).toNat = Spec.wordAt comp w := by
  simp only [inputWord, toNat_append_eq_add, paddedByte_toNat, Spec.wordAt]
  omega

/-- R80, R81: an accumulator before the mixing; the two additions truncate as one. -/
theorem hashSeedOf_add_toNat (n : Nat) (x : Word32) :
    (hashSeedOf n + x).toNat = (0xDEADBEEF + n + 146 + x.toNat) % 2 ^ 32 := by
  have hseed : hashSeed.toNat = 0xDEADBEEF := rfl
  have hinit : hashInit.toNat = 146 := rfl
  simp only [hashSeedOf, BitVec.toNat_add, BitVec.toNat_ofNat, hseed, hinit]
  omega

theorem seeded_toNat (comp : List Byte) :
    ((seeded comp).a.toNat, (seeded comp).b.toNat, (seeded comp).c32.toNat) = Spec.seededNat comp := by
  simp only [seeded, hashSeedOf_add_toNat, inputWord_toNat, Spec.seededNat]

/-- R8: the two halves of a rotation fill different bits, so their OR is their sum. -/
theorem rol32_toNat (x : Word32) {k : Nat} (hk : k ≤ 32) : (rol32 x k).toNat = Spec.rolNat x.toNat k := by
  have hsplit : 2 ^ (32 - k) * 2 ^ k = 2 ^ 32 := by rw [← Nat.pow_add, Nat.sub_add_cancel hk]
  have hlow : x.toNat / 2 ^ (32 - k) < 2 ^ k := Nat.div_lt_of_lt_mul (hsplit ▸ x.isLt)
  have hhigh : (x <<< k).toNat = (x.toNat % 2 ^ (32 - k)) <<< k := by
    rw [BitVec.toNat_shiftLeft, Nat.shiftLeft_eq, Nat.shiftLeft_eq, ← hsplit, Nat.mul_mod_mul_right]
  rw [rol32, BitVec.toNat_or, hhigh, BitVec.toNat_ushiftRight, Nat.shiftRight_eq_div_pow,
    ← Nat.shiftLeft_add_eq_or_of_lt hlow, Nat.shiftLeft_eq, Spec.rolNat]

/-- R82: one mixing step on numbers; the partner's rotation is a word, so the difference stays above 0 before truncation. -/
theorem mixStep_toNat (x y : Word32) {k : Nat} (hk : k ≤ 32) :
    (mixStep x y k).toNat = Spec.mixNat x.toNat y.toNat k := by
  have hr : (rol32 y k).toNat < 2 ^ 32 := (rol32 y k).isLt
  rw [mixStep, BitVec.toNat_sub, BitVec.toNat_xor, Spec.mixNat, ← rol32_toNat y hk]
  congr 1
  omega

theorem finalMix_toNat (v : Accumulators) :
    ((finalMix v).a.toNat, (finalMix v).b.toNat, (finalMix v).c32.toNat) =
      Spec.mixedNat (v.a.toNat, v.b.toNat, v.c32.toNat) := by
  simp [finalMix, mixStep_toNat, Spec.mixedNat]

theorem hash32_toNat (comp : List Byte) :
    ((hash32 comp).a.toNat, (hash32 comp).b.toNat, (hash32 comp).c32.toNat) =
      Spec.mixedNat (Spec.seededNat comp) := by
  rw [hash32, finalMix_toNat, seeded_toNat]

/-- R79, R83: a string of a supported length is hashed, to the low 16 bits of the third accumulator. -/
theorem hash16_of_length {comp : List Byte} (hmin : 3 ≤ comp.length) (hmax : comp.length ≤ 10) :
    hash16 comp = .ok (BitVec.ofNat 16 ((hash32 comp).c32.toNat % 65536)) := by
  have hlow : (hash32 comp).c32.extractLsb' 0 16 = BitVec.ofNat 16 ((hash32 comp).c32.toNat % 65536) := by
    apply BitVec.eq_of_toNat_eq
    simp
  have hlen : ¬ (comp.length < hashLenMin ∨ hashLenMax < comp.length) := by
    simp only [hashLenMin, hashLenMax]; omega
  simp [hash16, hlen, hlow]

/-- Settles O57: words, seeds and mixing steps each read as numbers, and the result is the low half of the third. -/
theorem hashFollowsItsSchedule : Obligations.HashFollowsItsSchedule := by
  intro comp hmin hmax
  refine ⟨fun w _ => inputWord_toNat comp w, seeded_toNat comp, hash32_toNat comp, ?_⟩
  rw [← hash32_toNat comp]
  exact hash16_of_length hmin hmax

end Sys2Proof.Machine
end

/-! The registers of the core (10_state.md): what an ENCODE leaves of a state is one function of its operands and its
word (R27, R101, R103), and from that who owns each register, which states are legal, and that CALL slots at or beyond
CALL_LEN show nowhere (R12, R54). -/

namespace Sys2Proof.Machine

open Sys2Proof.Safety

/-! ### Reset and legal states -/

/-- Settles O8: `State.afterReset` writes the values of R29, and only the platform differs from core to core. -/
theorem resetRegisterValues : Obligations.ResetRegisterValues :=
  ⟨rfl, rfl, rfl, rfl, rfl, rfl, rfl, rfl, rfl, ⟨rfl, rfl, rfl⟩, rfl, fun _ => rfl⟩

theorem legal_afterReset (p : Platform) (k : Nat) (events : List HostEvent) : Legal (State.afterReset p k events) :=
  ⟨rfl, by rw [State.afterReset_flags]; rfl⟩

/-- Settles O11: a legal state needs STATUS and FLAGS only, and every reset writes both. -/
theorem resetStatesAreLegal : Obligations.ResetStatesAreLegal :=
  ⟨legal_afterReset _ _ _, legal_afterReset⟩

/-- Legality is a matter of STATUS and FLAGS alone. -/
theorem legal_of_eq {s t : State} (hs : Legal s) (hstatus : t.status = s.status) (hflags : t.flags = s.flags) :
    Legal t := by
  rwa [Legal, hstatus, hflags]

theorem legal_withStatus {s : State} (hs : Legal s) {b : Byte} (hb : legalStatus b = true) : Legal (s.withStatus b) :=
  ⟨hb, hs.2⟩

/-- The reports of R112, R113 and R115 are on R21's list: 0x13, 0x23 and 0x43. -/
theorem legalStatus_errorStatus {e : EncodeError} (h : StageError e ∨ e = .invalidCommand) :
    legalStatus (errorStatus e) = true := by
  rcases h with (rfl | rfl) | rfl <;> rfl

/-! ### FLAGS -/

/-- What a write stores in FLAGS is bit 0 of the byte, by value (R19). -/
theorem flagsStored_eq (d : Byte) : flagsStored d = if d.getLsbD 0 then 0x01 else 0x00 := by
  revert d; decide

theorem flagsStored_reserved (d : Byte) : (flagsStored d).extractLsb' 1 7 = 0 := by
  rw [flagsStored_eq]; split <;> rfl

/-- Bits 7 to 1 of FLAGS read 0, whatever is stored (R19). -/
theorem flagsByte_getLsbD_of_pos (s : State) {k : Nat} (hk : 1 ≤ k) : (flagsByte s).getLsbD k = false := by
  have hne : k ≠ 0 := by omega
  simp [flagsByte, BitVec.getLsbD_one, hne]

theorem exec_wr_of_not_busy {s : State} (hb : statusBusy s = false) (a d : Byte) :
    exec (.wr a d) s = .next (writeLocation s d (locationAt a)) :=
  congrArg Host.Outcome.next (unlessBusy_of_not_busy hb _)

/-- Settles O17: the write stores `flagsStored`, and a read masks the register once more. -/
theorem flagsWriteKeepsBitZero : Obligations.FlagsWriteKeepsBitZero := by
  refine ⟨fun s d hb => ?_, fun s k hk => flagsByte_getLsbD_of_pos s hk⟩
  rw [exec_wr_of_not_busy hb, ← flagsStored_eq]
  rfl

/-! ### A write of a location other than CMD -/

/-- STATUS is the core's own: no write but that of CMD reaches it (R21, R32). -/
theorem writeLocation_status {l : Location} (hl : l ≠ .cmd) (s : State) (d : Byte) :
    (writeLocation s d l).status = s.status := by
  cases l with
  | cmd => exact absurd rfl hl
  | call i | callLen | power | loc4 i | loc6 i | pfx i | sfx | flags | status | sym i | reserved => rfl

/-- FLAGS takes a byte through `flagsStored` only (R19, R107). -/
theorem writeLocation_flags {l : Location} (hl : l ≠ .cmd) (s : State) (d : Byte) :
    (writeLocation s d l).flags = s.flags ∨ (writeLocation s d l).flags = flagsStored d := by
  cases l with
  | cmd => exact absurd rfl hl
  | flags => exact .inr rfl
  | call i | callLen | power | loc4 i | loc6 i | pfx i | sfx | status | sym i | reserved => exact .inl rfl

/-- Past FLAGS the window holds no register that a write stores in (R31, R32). -/
theorem writeLocation_of_offset_gt {a : Byte} (ha : 0x1A < a.toNat) (hl : locationAt a ≠ .cmd) (s : State) (d : Byte) :
    writeLocation s d (locationAt a) = s := by
  have hloc : locationAt a = .status ∨ (∃ i, locationAt a = .sym i) ∨ locationAt a = .reserved := by
    revert a; decide +kernel
  rcases hloc with h | ⟨i, h⟩ | h <;> rw [h] <;> rfl

theorem writeLocation_legal {l : Location} (hl : l ≠ .cmd) {s : State} (hs : Legal s) (d : Byte) :
    Legal (writeLocation s d l) := by
  have hstatus := writeLocation_status hl s d
  rcases writeLocation_flags hl s d with hflags | hflags
  · exact legal_of_eq hs hstatus hflags
  · exact ⟨hstatus ▸ hs.1, hflags ▸ flagsStored_reserved d⟩

/-! ### Every step keeps states legal -/

theorem exec_legal {i : Instr} {s t : State} (hs : Legal s) (h : exec i s = .next t) : Legal t := by
  rcases exec_cases i s t h with rfl | ⟨k, v, _, _, rfl⟩ | ⟨e, _, he, rfl⟩ | ⟨a, d, _, hl, rfl⟩ | ⟨a, _, rfl⟩
  · exact hs
  · exact legal_withStatus (legal_of_eq hs rfl rfl) rfl
  · exact legal_withStatus hs (legalStatus_errorStatus he)
  · exact writeLocation_legal hl hs d
  · exact legal_of_eq hs rfl rfl

/-- Settles O12: a step is idle, resets, runs an instruction or reports a reserved word, and each ends in a legal state
when it starts in one. -/
theorem everyStepKeepsStatesLegal : Obligations.EveryStepKeepsStatesLegal := by
  intro s t hs h
  have hport (rest : List HostEvent) : Legal (s.withInbox rest) := legal_of_eq hs rfl rfl
  rcases step_cases s with ⟨_, hstep⟩ | ⟨rest, _, hstep⟩ | ⟨w, rest, i, _, _, hstep⟩ | ⟨w, rest, _, hw, hstep⟩ <;>
    rw [hstep] at h
  · cases h; exact hs
  · cases h; exact legal_afterReset _ _ _
  · exact exec_legal (hport rest) h
  · cases h
    rcases reservedCommand_cases hw (s.withInbox rest) with hr | hr <;> rw [hr]
    · exact hport rest
    · exact legal_withStatus (hport rest) (legalStatus_errorStatus (.inr rfl))

/-! ### The three commands, and their words at the host port -/

theorem isCommand_iff (i : Instr) : Spec.IsCommand i ↔ ∃ k, i = commandOf k := by
  constructor
  · rintro (rfl | rfl | rfl)
    exacts [⟨.type1, rfl⟩, ⟨.type2, rfl⟩, ⟨.type3, rfl⟩]
  · rintro ⟨_ | _ | _, rfl⟩ <;> simp [commandOf, Spec.IsCommand]

theorem exec_commandOf (k : MessageType) (s : State) :
    exec (commandOf k) s = .next (unlessBusy s (runEncode (packerOf k) s)) := by
  cases k <;> rfl

theorem exec_wr_cmd (w : Byte) (s : State) : exec (.wr 0x1B w) s = .next (unlessBusy s (encodeCommand w s)) := rfl

/-- Settles O7: both sides run the same frame, by the message type of the byte. -/
theorem commandWriteRunsTheCommand : Obligations.CommandWriteRunsTheCommand := by
  intro s w
  rw [exec_wr_cmd]
  unfold encodeCommand decodeCommand
  cases messageTypeOf w with
  | none => rfl
  | some k => exact (exec_commandOf k s).symm

theorem decodeHost_ne_commandOf (w : BitVec 17) (k : MessageType) : decodeHost w ≠ commandOf k := by
  unfold decodeHost
  cases k <;> dsimp only [commandOf] <;> split <;> simp

theorem commandOf_injective : Function.Injective commandOf := by
  intro k k' h
  cases k <;> cases k' <;> cases h <;> rfl

/-- A command reaches the core by its own command word only (R42, R45). -/
theorem decodeWord_eq_commandOf {w : HostWord} {k : MessageType} (h : decodeWord w = .ok (commandOf k)) :
    ∃ b, w = .cmd b ∧ messageTypeOf b = some k := by
  cases w with
  | host w => exact absurd (Except.ok.inj h) (decodeHost_ne_commandOf w k)
  | cmd b =>
    unfold decodeWord decodeCommand at h
    dsimp only at h
    split at h
    · next k' hb => exact ⟨b, rfl, hb.trans (congrArg some (commandOf_injective (Except.ok.inj h)))⟩
    · cases h

/-! ### Who owns each register -/

/-- A write of CMD and the other commands leave the operand registers alone; a write at any other offset changes them up
to 0x1A only (R11, R32). -/
theorem exec_snapshot {i : Instr} {s t : State} (h : exec i s = .next t) :
    snapshot t = snapshot s ∨ ∃ a d, i = .wr a d ∧ a.toNat ≤ 0x1A := by
  rcases exec_cases i s t h with rfl | ⟨k, v, _, _, rfl⟩ | ⟨e, _, _, rfl⟩ | ⟨a, d, hi, hl, rfl⟩ | ⟨a, _, rfl⟩
  · exact .inl rfl
  · exact .inl rfl
  · exact .inl rfl
  · by_cases ha : a.toNat ≤ 0x1A
    · exact .inr ⟨a, d, hi, ha⟩
    · exact .inl (by rw [writeLocation_of_offset_gt (by omega) hl])
  · exact .inl rfl

/-- Only a command that succeeds changes SYM, to the stream of its operands (R22, R101). -/
theorem exec_sym {i : Instr} {s t : State} (h : exec i s = .next t) :
    t.sym = s.sym ∨ t.status = doneStatus ∧ ∃ k, (i = commandOf k ∨ ∃ d, i = .wr 0x1B d ∧ messageTypeOf d = some k) ∧
      encodeSymbols s.platform.sync (packerOf k) (snapshot s) = .ok t.sym := by
  rcases exec_cases i s t h with rfl | ⟨k, v, hi, hv, rfl⟩ | ⟨e, _, _, rfl⟩ | ⟨a, d, _, hl, rfl⟩ | ⟨a, _, rfl⟩
  · exact .inl rfl
  · exact .inr ⟨rfl, k, hi, hv⟩
  · exact .inl rfl
  · exact .inl (writeLocation_sym_platform hl s d).1
  · exact .inl rfl

/-- Only a command or a write of CMD changes STATUS (R21, R32). -/
theorem exec_status {i : Instr} {s t : State} (h : exec i s = .next t) :
    t.status = s.status ∨ (∃ k, i = commandOf k) ∨ ∃ d, i = .wr 0x1B d := by
  rcases exec_cases i s t h with rfl | ⟨k, v, hi, _, rfl⟩ | ⟨e, hi, _, rfl⟩ | ⟨a, d, _, hl, rfl⟩ | ⟨a, _, rfl⟩
  · exact .inl rfl
  · exact .inr (hi.imp (fun hi => ⟨k, hi⟩) fun ⟨d, hi, _⟩ => ⟨d, hi⟩)
  · exact .inr hi
  · exact .inl (writeLocation_status hl s d)
  · exact .inl rfl

/-- Settles O14: an instruction's owners of the registers, each traced back to the word the step took. -/
theorem registersChangeOnlyByTheirOwner : Obligations.RegistersChangeOnlyByTheirOwner := by
  intro s t h hne
  rcases step_cases s with ⟨_, hs⟩ | ⟨rest, hin, _⟩ | ⟨w, rest, i, hin, hd, hs⟩ | ⟨w, rest, hin, hw, hs⟩
  · obtain rfl := Host.Outcome.next.inj (hs.symm.trans h)
    exact ⟨.inl rfl, .inl rfl, .inl rfl⟩
  · exact absurd (by rw [hin]; rfl) hne
  · rw [hs] at h
    have hhead : s.inbox.head? = some (.word w) := by rw [hin]; rfl
    refine ⟨(exec_sym h).imp id ?_, (exec_snapshot h).imp id ?_, (exec_status h).imp id ?_⟩
    · rintro ⟨hstatus, k, hi, hsym⟩
      have hword : ∃ b, (w = .cmd b ∨ decodeWord w = .ok (.wr 0x1B b)) ∧ messageTypeOf b = some k := by
        rcases hi with rfl | ⟨d, rfl, hk⟩
        · obtain ⟨b, hb, hk⟩ := decodeWord_eq_commandOf hd
          exact ⟨b, .inl hb, hk⟩
        · exact ⟨d, .inr hd, hk⟩
      obtain ⟨b, hb, hk⟩ := hword
      exact ⟨hstatus, w, b, k, hhead, hb, hk, hsym⟩
    · rintro ⟨a, d, rfl, ha⟩
      exact ⟨w, a, d, hhead, hd, ha⟩
    · rintro (⟨k, rfl⟩ | ⟨d, rfl⟩)
      · obtain ⟨b, hb, _⟩ := decodeWord_eq_commandOf hd
        exact ⟨w, hhead, .inl ⟨b, hb⟩⟩
      · exact ⟨w, hhead, .inr ⟨d, hd⟩⟩
  · obtain rfl := Host.Outcome.next.inj (hs.symm.trans h)
    have hhead : s.inbox.head? = some (.word (.cmd w)) := by rw [hin]; rfl
    rcases reservedCommand_cases hw (s.withInbox rest) with hr | hr <;> rw [hr] <;>
      exact ⟨.inl rfl, .inl rfl, .inr ⟨_, hhead, .inl ⟨w, rfl⟩⟩⟩

/-! ### An ENCODE as the writing of one result -/

/-- The end of an ENCODE with the result `r`: SYM and STATUS on success, STATUS alone on an error (R101). -/
def State.endEncode (s : State) : Except EncodeError SymbolStream → State
  | .ok v => (s.withSym v).withStatus doneStatus
  | .error e => s.withStatus (errorStatus e)

/-- The result of writing the byte `w` to CMD: a function of SYNC, the byte and the operands (R103). -/
def commandResult (sync : SyncVector) (w : Byte) (o : Snapshot) : Except EncodeError SymbolStream :=
  match messageTypeOf w with
  | some k => encodeSymbols sync (packerOf k) o
  | none => .error .invalidCommand

/-- The ENCODE frame is the end with the stages' result: BUSY, set at its start, is over by then (R101, R102). -/
theorem runEncode_eq_endEncode (pack : Packer) (s : State) :
    runEncode pack s = s.endEncode (encodeSymbols s.platform.sync pack (snapshot s)) := by
  rcases runEncode_cases pack s with ⟨v, hv, hr⟩ | ⟨e, he, hr⟩
  · rw [hr, hv]; rfl
  · rw [hr, he]; rfl

theorem encodeCommand_eq_endEncode (w : Byte) (s : State) :
    encodeCommand w s = s.endEncode (commandResult s.platform.sync w (snapshot s)) := by
  unfold encodeCommand commandResult
  cases messageTypeOf w with
  | none => rfl
  | some k => exact runEncode_eq_endEncode (packerOf k) s

@[simp] theorem endEncode_platform (s : State) (r : Except EncodeError SymbolStream) :
    (s.endEncode r).platform = s.platform := by cases r <;> rfl

@[simp] theorem snapshot_endEncode (s : State) (r : Except EncodeError SymbolStream) :
    snapshot (s.endEncode r) = snapshot s := by cases r <;> rfl

/-- Ending twice with one result is ending once. -/
@[simp] theorem endEncode_endEncode (s : State) (r : Except EncodeError SymbolStream) :
    (s.endEncode r).endEncode r = s.endEncode r := by cases r <;> rfl

/-- The STATUS an ENCODE ends with depends on its result alone. -/
theorem endEncode_status_congr (s s' : State) (r : Except EncodeError SymbolStream) :
    (s'.endEncode r).status = (s.endEncode r).status := by cases r <;> rfl

/-- So does SYM, unless the result is an error: then SYM stays as it was. -/
theorem endEncode_sym_congr {s s' : State} {r : Except EncodeError SymbolStream}
    (h : s'.sym = s.sym ∨ (s.endEncode r).status = doneStatus) : (s'.endEncode r).sym = (s.endEncode r).sym := by
  cases r with
  | ok v => rfl
  | error e =>
    have herr : errorStatus e ≠ doneStatus := by cases e <;> decide
    exact h.resolve_right herr

/-- The busy rule makes no difference where the operation changes nothing. -/
@[simp] theorem unlessBusy_self (s : State) : unlessBusy s s = s := ite_self s

/-- Settles O31: the result is a function of SYNC, the byte and the operands, none of which the command changes. -/
theorem commandsAreStateless : Obligations.CommandsAreStateless := by
  constructor
  · intro s t w hb h
    rw [exec_wr_cmd, unlessBusy_of_not_busy hb] at h
    obtain rfl := Host.Outcome.next.inj h
    have hagain : encodeCommand w (encodeCommand w s) = encodeCommand w s := by
      simp [encodeCommand_eq_endEncode]
    rw [exec_wr_cmd, hagain, unlessBusy_self]
  · intro s s' t t' w hb hb' ho hsync h h'
    rw [exec_wr_cmd, unlessBusy_of_not_busy hb, encodeCommand_eq_endEncode] at h
    rw [exec_wr_cmd, unlessBusy_of_not_busy hb', encodeCommand_eq_endEncode, ho, hsync] at h'
    obtain rfl := Host.Outcome.next.inj h
    obtain rfl := Host.Outcome.next.inj h'
    exact ⟨endEncode_status_congr .., fun hdone => endEncode_sym_congr (.inr hdone)⟩

/-! ### CALL slots at or beyond CALL_LEN -/

/-- Two contents of CALL that agree in the slots below `len`. -/
def AgreeBelow (len : Byte) (call call' : Vector Byte 10) : Prop :=
  ∀ (k : Nat) (_ : k < 10), k < len.toNat → call'[k] = call[k]

/-- The operands with another content of CALL. -/
def Snapshot.withCall (o : Snapshot) (call : Vector Byte 10) : Snapshot := { o with call := call }

theorem rawChar_congr {len : Byte} {call call' : Vector Byte 10} (h : AgreeBelow len call call') (i : Nat) :
    rawChar call' len i = rawChar call len i := by
  unfold rawChar
  split
  · next hlen =>
    by_cases hi : i < 10
    · rw [Vector.getElem?_eq_getElem hi, Vector.getElem?_eq_getElem hi, h i hi hlen]
    · rw [Vector.getElem?_eq_none (by omega), Vector.getElem?_eq_none (by omega)]
  · rfl

theorem rawCall_congr {len : Byte} {call call' : Vector Byte 10} (h : AgreeBelow len call call') :
    rawCall call' len = rawCall call len := by
  apply List.ext_getElem
  · simp [rawCall]
  · intro k hk _
    simp only [rawCall, List.length_take, Vector.length_toList, lt_min_iff] at hk
    simpa [rawCall] using h k hk.2 hk.1

/-- The normalizer reads CALL through `rawChar` (R53, R54). -/
theorem normCall_congr {len : Byte} {call call' : Vector Byte 10} (h : AgreeBelow len call call') :
    normCall call' len = normCall call len := by
  have hraw : rawChar call' len = rawChar call len := funext (rawChar_congr h)
  have hshift : shiftedChar call' len = shiftedChar call len := by
    unfold shiftedChar shiftsRight
    rw [hraw]
  have hclean : cleanedChar call' len = cleanedChar call len := by
    unfold cleanedChar
    rw [hshift]
  unfold normCall
  rw [hclean]

theorem normalize_withCall {o : Snapshot} {call : Vector Byte 10} (h : AgreeBelow o.callLen o.call call) :
    normalize (o.withCall call) = normalize o := by
  simp only [normalize, Snapshot.withCall, normCall_congr h]

theorem composite_withCall {o : Snapshot} {call : Vector Byte 10} (h : AgreeBelow o.callLen o.call call) :
    composite (o.withCall call) = composite o := by
  have hcall : rawCall (o.withCall call).call (o.withCall call).callLen = rawCall o.call o.callLen := rawCall_congr h
  unfold composite
  rw [hcall]
  rfl

/-- Beside the normalizer's results a packer reads CALL through the composite string only, which is ENC3's (R44, R78). -/
theorem packerOf_withCall {o : Snapshot} {call : Vector Byte 10} (h : AgreeBelow o.callLen o.call call)
    (k : MessageType) (msg : NormalizedMessage) : packerOf k msg (o.withCall call) = packerOf k msg o := by
  cases k with
  | type1 => rfl
  | type2 => rfl
  | type3 =>
    show packType3 msg (o.withCall call) = packType3 msg o
    unfold packType3
    rw [composite_withCall h]
    rfl

theorem encodeSymbols_withCall {o : Snapshot} {call : Vector Byte 10} (h : AgreeBelow o.callLen o.call call)
    (sync : SyncVector) (k : MessageType) :
    encodeSymbols sync (packerOf k) (o.withCall call) = encodeSymbols sync (packerOf k) o := by
  unfold encodeSymbols
  rw [normalize_withCall h, packerOf_withCall h]
  rfl

/-- Settles O30: the stages read CALL through `rawChar` and `rawCall`, which stop at CALL_LEN. -/
theorem slotsBeyondTheLengthAreIgnored : Obligations.SlotsBeyondTheLengthAreIgnored := by
  intro i s call hi h
  obtain ⟨k, rfl⟩ := (isCommand_iff i).1 hi
  have hresult : encodeSymbols s.platform.sync (packerOf k) (snapshot { s with call := call }) =
      encodeSymbols s.platform.sync (packerOf k) (snapshot s) :=
    encodeSymbols_withCall (o := snapshot s) h _ k
  refine ⟨_, _, exec_commandOf k s, exec_commandOf k _, ?_⟩
  cases hb : statusBusy s with
  | true =>
    rw [unlessBusy_of_busy hb, unlessBusy_of_busy (s := { s with call := call }) hb]
    exact ⟨rfl, rfl⟩
  | false =>
    rw [unlessBusy_of_not_busy hb, unlessBusy_of_not_busy (s := { s with call := call }) hb,
      runEncode_eq_endEncode, runEncode_eq_endEncode, hresult]
    exact ⟨endEncode_status_congr .., endEncode_sym_congr (.inl rfl)⟩

end Sys2Proof.Machine

/-! The register window and the host port (20_memory.md): what stands at each offset (R31), reads and writes of it (R32,
R34, R107, R108), and that every host action completes. -/

namespace Sys2Proof.Machine

open Sys2Proof.Safety

/-! ### The register map -/

theorem eq_ofNat_of_toNat_eq {a : Byte} {n : Nat} (h : a.toNat = n) : a = BitVec.ofNat 8 n := by
  rw [← h, BitVec.ofNat_toNat, BitVec.setWidth_eq]

/-- A block of offsets reads by element, once it is known offset by offset. -/
theorem locationAt_of_rows {n base : Nat} {block : Fin n → Location}
    (rows : ∀ j : Fin n, locationAt (BitVec.ofNat 8 (base + j)) = block j) {a : Byte} {i : Nat} (hi : i < n)
    (h : a.toNat = base + i) : locationAt a = block ⟨i, hi⟩ := by
  rw [eq_ofNat_of_toNat_eq h]; exact rows ⟨i, hi⟩

theorem locationAt_call {a : Byte} (h : a.toNat < 10) : locationAt a = .call ⟨a.toNat, h⟩ := dif_pos h

theorem locationAt_loc4 {a : Byte} {i : Nat} (hi : i < 4) (h : a.toNat = 0x0C + i) : locationAt a = .loc4 ⟨i, hi⟩ :=
  locationAt_of_rows (by decide) hi h

theorem locationAt_loc6 {a : Byte} {i : Nat} (hi : i < 6) (h : a.toNat = 0x10 + i) : locationAt a = .loc6 ⟨i, hi⟩ :=
  locationAt_of_rows (by decide) hi h

theorem locationAt_pfx {a : Byte} {i : Nat} (hi : i < 3) (h : a.toNat = 0x16 + i) : locationAt a = .pfx ⟨i, hi⟩ :=
  locationAt_of_rows (by decide) hi h

theorem locationAt_sym {a : Byte} {i : Nat} (hi : i < 162) (h : a.toNat = 0x20 + i) : locationAt a = .sym ⟨i, hi⟩ :=
  locationAt_of_rows (by decide +kernel) hi h

/-- The reserved offsets of R32. -/
theorem locationAt_reserved {a : Byte} (h : (0x1D ≤ a.toNat ∧ a.toNat ≤ 0x1F) ∨ 0xC2 ≤ a.toNat) :
    locationAt a = .reserved := by
  revert a; decide +kernel

/-! ### Reads -/

theorem exec_rd (a : Byte) (s : State) : exec (.rd a) s = .next (s.withResponse (some (windowRead s a))) := rfl

/-- The answer to an RD is in no register, so no read sees it (R34). -/
@[simp] theorem windowRead_withResponse (s : State) (r : Option Byte) (a : Byte) :
    windowRead (s.withResponse r) a = windowRead s a :=
  readLocation_congr rfl rfl rfl rfl rfl rfl rfl rfl rfl rfl (locationAt a)

theorem windowRead_of_location (s : State) {a : Byte} {l : Location} (h : locationAt a = l) :
    windowRead s a = readLocation s l := congrArg (readLocation s) h

/-- A read by the number of its offset; where that is a numeral, the register map evaluates. -/
theorem windowRead_of_toNat (s : State) {a : Byte} {n : Nat} (h : a.toNat = n) :
    windowRead s a = windowRead s (BitVec.ofNat 8 n) := congrArg (windowRead s) (eq_ofNat_of_toNat_eq h)

/-- Where the reserved bits of FLAGS are 0, the mask of a read takes nothing away (R19). -/
theorem flagsByte_of_legal {s : State} (hs : Legal s) : flagsByte s = s.flags := by
  have mask : ∀ b : Byte, b.extractLsb' 1 7 = 0 → b &&& 0x01 = b := by decide
  exact mask s.flags hs.2

/-- No STATUS value of R21's list has a reserved bit set. -/
theorem statusByte_of_legal {s : State} (hs : Legal s) : statusByte s = s.status := by
  have mask : ∀ b : Byte, legalStatus b = true → b &&& 0x77 = b := by decide
  exact mask s.status hs.1

/-- Settles O20: one clause for each row of the register map; FLAGS and STATUS need the legal state. -/
theorem readReturnsTheRegister : Obligations.ReadReturnsTheRegister := by
  intro s a hs
  refine ⟨windowRead s a, exec_rd a s, ?call, ?callLen, ?power, ?loc4, ?loc6, ?pfx, ?sfx, ?flags, ?cmd, ?status, ?sym,
    ?reserved⟩
  case call => exact fun h => windowRead_of_location s (locationAt_call h)
  case callLen => exact windowRead_of_toNat s
  case power => exact windowRead_of_toNat s
  case loc4 => exact fun i hi h => windowRead_of_location s (locationAt_loc4 hi h)
  case loc6 => exact fun i hi h => windowRead_of_location s (locationAt_loc6 hi h)
  case pfx => exact fun i hi h => windowRead_of_location s (locationAt_pfx hi h)
  case sfx => exact windowRead_of_toNat s
  case flags => exact fun h => (windowRead_of_toNat s h).trans (flagsByte_of_legal hs)
  case cmd => exact windowRead_of_toNat s
  case status => exact fun h => (windowRead_of_toNat s h).trans (statusByte_of_legal hs)
  case sym =>
    intro i hi h
    rw [windowRead_of_location s (locationAt_sym hi h)]
    exact BitVec.toNat_setWidth_of_le (by decide)
  case reserved => exact fun h => windowRead_of_location s (locationAt_reserved h)

/-! ### Writes -/

theorem exec_wr (a d : Byte) (s : State) :
    exec (.wr a d) s = .next (unlessBusy s (writeLocation s d (locationAt a))) := rfl

/-- Past CMD there is nothing a host can write (R32), busy or not. -/
theorem exec_wr_of_offset_gt_cmd {a : Byte} (ha : 0x1B < a.toNat) (d : Byte) (s : State) :
    exec (.wr a d) s = .next s := by
  have hcmd : locationAt a ≠ .cmd := by
    intro h
    rw [locationAt_eq_cmd h] at ha
    exact absurd ha (by decide)
  rw [exec_wr, writeLocation_of_offset_gt (by omega) hcmd, unlessBusy_self]

theorem flagsStored_congr {d e : Byte} (h : d.getLsbD 0 = e.getLsbD 0) : flagsStored d = flagsStored e := by
  rw [flagsStored_eq, flagsStored_eq, h]

/-- Settles O18: the reserved offsets by the register map, the writes by their offsets past CMD, and FLAGS by what a write
stores there. -/
theorem reservedAndReadOnlyLocations : Obligations.ReservedAndReadOnlyLocations := by
  refine ⟨fun s a h => ⟨?_, fun d => exec_wr_of_offset_gt_cmd (by omega) d s⟩,
    fun s a d h => exec_wr_of_offset_gt_cmd (by omega) d s, fun s d e h => ?_⟩
  · rw [exec_rd, windowRead_of_location s (locationAt_reserved h)]; rfl
  · have hflags (x : Byte) : writeLocation s x (locationAt 0x1A) = s.withFlags (flagsStored x) := rfl
    rw [exec_wr, exec_wr, hflags, hflags, flagsStored_congr h]

/-- A register holds the last byte written to it, so writing that byte once more changes nothing (R34). -/
theorem writeLocation_writeLocation {l : Location} (hl : l ≠ .cmd) (s : State) (d : Byte) :
    writeLocation (writeLocation s d l) d l = writeLocation s d l := by
  cases l with
  | cmd => exact absurd rfl hl
  | call i => simp [writeLocation, State.withCall]
  | loc4 i => simp [writeLocation, State.withLoc4]
  | loc6 i => simp [writeLocation, State.withLoc6]
  | pfx i => simp [writeLocation, State.withPfx]
  | callLen | power | sfx | flags | status | sym i | reserved => rfl

/-- A write other than to CMD, taken or turned away, leaves a state that the same write leaves as it is, and neither
STATUS nor SYM is its own (R32, R34). -/
theorem exec_wr_idempotent {a d : Byte} {s t : State} (ha : a ≠ 0x1B) (h : exec (.wr a d) s = .next t) :
    exec (.wr a d) t = .next t ∧ t.status = s.status ∧ t.sym = s.sym := by
  have hl : locationAt a ≠ .cmd := fun hc => ha (locationAt_eq_cmd hc)
  obtain rfl := Host.Outcome.next.inj ((exec_wr a d s).symm.trans h)
  rcases unlessBusy_cases s (writeLocation s d (locationAt a)) with ⟨_, hb⟩ | ⟨_, hb⟩ <;> rw [hb] at h ⊢
  · exact ⟨h, rfl, rfl⟩
  · refine ⟨?_, writeLocation_status hl s d, (writeLocation_sym_platform hl s d).1⟩
    rw [exec_wr, writeLocation_writeLocation hl, unlessBusy_self]

/-- Settles O21: an RD changes the response only, which no read sees; a write repeats itself; a write of CMD runs ENCODE. -/
theorem readsAreFreeAndWritesIdempotent : Obligations.ReadsAreFreeAndWritesIdempotent := by
  refine ⟨fun s t a h => ?_, fun s t a d ha h => exec_wr_idempotent ha h, fun s w hb => exec_wr_of_not_busy hb 0x1B w⟩
  obtain rfl := Host.Outcome.next.inj ((exec_rd a s).symm.trans h)
  exact ⟨⟨rfl, rfl, rfl, rfl, rfl, rfl, rfl, rfl, rfl, rfl⟩, windowRead_withResponse s _⟩

/-! ### Every host action completes -/

/-- Each instruction answers a next state: an access never fails (R32, R107, R108) and a command reports its errors in
STATUS (R118). -/
theorem exec_completes (i : Instr) (s : State) : ∃ t, exec i s = .next t := by
  cases i with
  | enc1 | enc2 | enc3 | wr a d | rd a => exact ⟨_, rfl⟩

/-- Settles O13: of all that a step can do, only running an instruction could stop, and no instruction does. -/
theorem everyStepCompletes : Obligations.EveryStepCompletes := by
  intro s
  rcases step_cases s with ⟨_, hs⟩ | ⟨rest, _, hs⟩ | ⟨w, rest, i, _, _, hs⟩ | ⟨w, rest, _, _, hs⟩
  · exact ⟨_, hs⟩
  · exact ⟨_, hs⟩
  · rw [hs]; exact exec_completes i _
  · exact ⟨_, hs⟩

end Sys2Proof.Machine

/-! The two word formats and what carries them (30_encoding.md): decoding and encoding over words and over packets of
bytes (R42, R43, R45, R46), a waiting or placed word's step (log 1), the registers each command reads (R44), and the
transactions of SETCALL (R48). -/

namespace Sys2Proof

open Sys2Proof.Machine

/-! ### The fields of a word -/

theorem extractLsb'_zero_append {m n : Nat} (x : BitVec m) (y : BitVec n) : (x ++ y).extractLsb' 0 n = y := by
  rw [BitVec.extractLsb'_append_eq_of_add_le (Nat.zero_add n).le, BitVec.extractLsb'_eq_self]

theorem extractLsb'_append_zero {m n : Nat} (x : BitVec m) (y : BitVec n) : (x ++ y).extractLsb' n m = x := by
  rw [BitVec.extractLsb'_append_eq_of_le (Nat.le_refl n), Nat.sub_self, BitVec.extractLsb'_eq_self]

/-- A transaction word is its bits 16, 15:8 and 7:0, one after the other (R43). -/
theorem hostWord_eq_append (w : BitVec 17) : w.extractLsb' 16 1 ++ w.extractLsb' 8 8 ++ w.extractLsb' 0 8 = w := by
  have hhigh : w.extractLsb' 16 1 ++ w.extractLsb' 8 8 = w.extractLsb' 8 9 :=
    BitVec.extractLsb'_append_extractLsb'_eq_extractLsb' rfl
  have hall : w.extractLsb' 8 9 ++ w.extractLsb' 0 8 = w.extractLsb' 0 17 :=
    BitVec.extractLsb'_append_extractLsb'_eq_extractLsb' rfl
  rw [hhigh, hall, BitVec.extractLsb'_eq_self]

/-- So every transaction word is made of a bit W, an address and a data byte (R43). -/
theorem exists_hostFields (w : BitVec 17) : ∃ (b : Bool) (a d : Byte), w = BitVec.ofBool b ++ a ++ d := by
  have hbit : ∀ x : BitVec 1, ∃ b, x = BitVec.ofBool b := by decide
  obtain ⟨b, hb⟩ := hbit (w.extractLsb' 16 1)
  exact ⟨b, _, _, hb ▸ (hostWord_eq_append w).symm⟩

theorem decodeHost_append (b : Bool) (a d : Byte) :
    decodeHost (BitVec.ofBool b ++ a ++ d) = if b then .wr a d else .rd a := by
  have hbit : (BitVec.ofBool b ++ a ++ d).getLsbD 16 = b := by
    rw [BitVec.getLsbD_append, BitVec.getLsbD_append]; cases b <;> rfl
  have haddr : (BitVec.ofBool b ++ a ++ d).extractLsb' 8 8 = a := by
    rw [BitVec.extractLsb'_append_eq_of_le (Nat.le_refl 8)]; exact extractLsb'_zero_append _ a
  have hdata : (BitVec.ofBool b ++ a ++ d).extractLsb' 0 8 = d := extractLsb'_zero_append _ d
  simp only [decodeHost, hbit, haddr, hdata]

/-! ### Command words -/

/-- The decoder's two fields against the table of the three defined words (R45, R46). -/
theorem messageTypeOf_eq (w : Byte) :
    messageTypeOf w =
      if w = 0x01 then some .type1 else if w = 0x02 then some .type2 else if w = 0x03 then some .type3 else none := by
  revert w; decide

/-- A byte has a message type exactly when it is the word of that type's command (R45). -/
theorem messageTypeOf_eq_some_iff (w : Byte) (k : MessageType) :
    messageTypeOf w = some k ↔ encode (commandOf k) = .cmd w := by
  cases k <;> revert w <;> decide

theorem decodeCommand_eq_ok_iff (w : Byte) (i : Instr) :
    decodeCommand w = .ok i ↔ ∃ k, messageTypeOf w = some k ∧ i = commandOf k := by
  unfold decodeCommand
  cases messageTypeOf w with
  | none => simp
  | some k => simpa using eq_comm

/-- Of the two formats only a command word can be rejected, and then it is named (R46). -/
theorem decodeWord_eq_error {w : HostWord} {e : DecodeError} (h : decodeWord w = .error e) :
    ∃ b, w = .cmd b ∧ messageTypeOf b = none := by
  cases w with
  | host w => cases h
  | cmd b =>
    cases hb : messageTypeOf b with
    | none => exact ⟨b, rfl, hb⟩
    | some k => cases ((decodeCommand_eq_ok_iff b _).2 ⟨k, hb, rfl⟩).symm.trans h

/-! ### Decoding what is encoded -/

theorem decodeWord_encode_commandOf (k : MessageType) : decodeWord (encode (commandOf k)) = .ok (commandOf k) := by
  cases k <;> rfl

theorem decodeWord_encode (i : Instr) : decodeWord (encode i) = .ok i := by
  cases i with
  | enc1 => exact decodeWord_encode_commandOf .type1
  | enc2 => exact decodeWord_encode_commandOf .type2
  | enc3 => exact decodeWord_encode_commandOf .type3
  | wr a d => exact congrArg Except.ok (decodeHost_append true a d)
  | rd a => exact congrArg Except.ok (decodeHost_append false a 0)

/-- Reading a word's packet of bytes gives the word back: the padding of the third byte is zero, and the three bytes are
the fields of the word (log 9). -/
theorem readWord_wordBytes (w : HostWord) : readWord (wordBytes w) = .ok w := by
  cases w with
  | cmd b => rfl
  | host w =>
    have hpad : (0#7 ++ w.extractLsb' 16 1).extractLsb' 1 7 = 0 := extractLsb'_append_zero _ _
    have htop : (0#7 ++ w.extractLsb' 16 1).extractLsb' 0 1 = w.extractLsb' 16 1 := extractLsb'_zero_append _ _
    rw [wordBytes, readWord, if_pos hpad, htop, hostWord_eq_append]

theorem decodeBytes_wordBytes (w : HostWord) : decodeBytes (wordBytes w) = decodeWord w := by
  rw [decodeBytes, readWord_wordBytes]

/-- Settles O1: a word by the cases of its instruction, and a packet because its bytes are the word's own. -/
theorem decodeOfEncodeIsTheInstruction : Obligations.DecodeOfEncodeIsTheInstruction := fun i _ =>
  ⟨decodeWord_encode i, (decodeBytes_wordBytes (encode i)).trans (decodeWord_encode i)⟩

/-- Settles O2: a command word is its command's, and of a transaction word only an RD loses its DATA field. -/
theorem encodeOfDecodeKeepsTheWord : Obligations.EncodeOfDecodeKeepsTheWord := by
  intro w i h
  cases w with
  | cmd b =>
    obtain ⟨k, hk, rfl⟩ := (decodeCommand_eq_ok_iff b i).1 h
    exact .inl ((messageTypeOf_eq_some_iff b k).1 hk)
  | host w =>
    obtain ⟨b, a, d, rfl⟩ := exists_hostFields w
    obtain rfl := (decodeHost_append b a d).symm.trans (Except.ok.inj h)
    cases b with
    | true => exact .inl rfl
    | false => exact .inr ⟨a, d, rfl, rfl⟩

/-- Settles O3: each word is a literal that the decoder evaluates. -/
theorem wordsOfTheSpecDecode : Obligations.WordsOfTheSpecDecode := by
  unfold Obligations.WordsOfTheSpecDecode
  decide

/-- Settles O4: the decoder answers by the message type of the byte, which `messageTypeOf_eq` tabulates. -/
theorem commandWordsAreOneTwoThree : Obligations.CommandWordsAreOneTwoThree := by
  intro w
  rw [decodeCommand, messageTypeOf_eq]
  split_ifs <;> rfl

end Sys2Proof

namespace Sys2Proof.Machine

/-! ### The step of a word at the host port -/

theorem step_of_decodeWord {s : State} {w : HostWord} {rest : List HostEvent} {i : Instr}
    (hin : s.inbox = .word w :: rest) (hd : decodeWord w = .ok i) : step s = exec i (s.withInbox rest) := by
  rcases step_cases s with ⟨h, _⟩ | ⟨_, h, _⟩ | ⟨_, _, _, h, hd', hs⟩ | ⟨b, _, h, hb, _⟩ <;> cases hin.symm.trans h
  · obtain rfl := Except.ok.inj (hd.symm.trans hd')
    exact hs
  · obtain ⟨k, hk, _⟩ := (decodeCommand_eq_ok_iff b i).1 hd
    cases hb.symm.trans hk

theorem step_of_reserved {s : State} {b : Byte} {rest : List HostEvent}
    (hin : s.inbox = .word (.cmd b) :: rest) (hb : messageTypeOf b = none) :
    step s = .next (reservedCommand b (s.withInbox rest)) := by
  rcases step_cases s with ⟨h, _⟩ | ⟨_, h, _⟩ | ⟨_, _, i, h, hd, _⟩ | ⟨_, _, h, _, hs⟩ <;> cases hin.symm.trans h
  · obtain ⟨k, hk, _⟩ := (decodeCommand_eq_ok_iff b i).1 hd
    cases hb.symm.trans hk
  · exact hs

/-- A reserved word reports InvalidCommand, unless busy (R46, R107). -/
theorem reservedCommand_eq {w : Byte} (hw : messageTypeOf w = none) (s : State) :
    reservedCommand w s = unlessBusy s (s.withStatus 0x43) := by
  unfold reservedCommand encodeCommand
  rw [hw]
  rfl

/-- Settles O5: a step by what its word decodes to; a rejected word is a reserved command word (R46). -/
theorem stepRunsTheDecodedInstruction : Obligations.StepRunsTheDecodedInstruction := by
  intro s w rest hin
  refine ⟨fun i _ hd => step_of_decodeWord hin hd, fun e he => ?_⟩
  obtain ⟨b, rfl, hb⟩ := decodeWord_eq_error he
  rw [step_of_reserved hin hb, reservedCommand_eq hb]
  rfl

/-! ### A table row's word, placed for the next step -/

/-- Three bytes laid out from a number hold its bits 16 to 0, which are the transaction word (log 9). -/
theorem layOut_three_append (w : Nat) :
    (BitVec.ofNat 8 (w / 256 / 256)).extractLsb' 0 1 ++ BitVec.ofNat 8 (w / 256) ++ BitVec.ofNat 8 w =
      BitVec.ofNat 17 w := by
  apply BitVec.eq_of_toNat_eq
  simp only [toNat_append_eq_add, BitVec.extractLsb'_toNat, BitVec.toNat_ofNat, Nat.shiftRight_zero]
  omega

/-- A laid out number reads as a word in two ways only: one byte is a command word, three bytes are a transaction. -/
theorem readWord_layOut {n w : Nat} {hw : HostWord} (h : readWord (layOut n w) = .ok hw) :
    n = 1 ∧ hw = .cmd (BitVec.ofNat 8 w) ∨ n = 3 ∧ hw = .host (BitVec.ofNat 17 w) := by
  match n, h with
  | 0, h | 2, h | _ + 4, h => cases h
  | 1, h => cases h; exact .inl ⟨rfl, rfl⟩
  | 3, h =>
    simp only [layOut, readWord] at h
    split at h
    · cases h; exact .inr ⟨rfl, congrArg HostWord.host (layOut_three_append w)⟩
    · cases h

/-- The packet of a table row holds the word that `State.withFetchWord` places. -/
theorem decodeWord_tableWord {nbits w : Nat} {i : Instr} (h : decodeTableWord nbits w = some i) :
    decodeWord (tableWord nbits w) = .ok i := by
  have hd : decodeBytes (layOut ((nbits + 7) / 8) w) = .ok i := by
    unfold decodeTableWord at h
    split at h
    · next j hj => exact hj.trans (congrArg Except.ok (Option.some.inj h))
    · cases h
  unfold decodeBytes at hd
  split at hd
  · next hw hread =>
    have htable : hw = tableWord nbits w := by
      unfold tableWord
      rcases readWord_layOut hread with ⟨hn, rfl⟩ | ⟨hn, rfl⟩
      · rw [if_pos (by omega)]
      · rw [if_neg (by omega)]
    exact htable ▸ hd
  · cases hd

/-- Settles O6: the placed word is the oldest, and taking it leaves the queue as it was. -/
theorem placedWordRunsNext : Obligations.PlacedWordRunsNext := fun s nbits w _ h =>
  step_of_decodeWord (s := s.withFetchWord nbits w) (rest := s.inbox) rfl (decodeWord_tableWord h)

/-! ### The registers a command reads -/

/-- Two snapshots agree in the operands that a command of type `k` reads (R44). -/
structure AgreeOnOperands (k : MessageType) (o o' : Snapshot) : Prop where
  call : o'.call = o.call
  callLen : o'.callLen = o.callLen
  power : o'.power = o.power
  loc4 : k = .type1 → o'.loc4 = o.loc4
  selected : k ≠ .type1 → o'.useSuffix = o.useSuffix ∧
    (o.useSuffix = true → o'.sfx = o.sfx) ∧ (o.useSuffix = false → o'.pfx = o.pfx)
  loc6 : k = .type3 → o'.loc6 = o.loc6

section
variable {k : MessageType} {o o' : Snapshot}

/-- The normalizer's call sign and power are the same for every type; its locator is ENC1's alone (R44). -/
theorem AgreeOnOperands.normalize_callsign6 (h : AgreeOnOperands k o o') :
    (normalize o').callsign6 = (normalize o).callsign6 := by
  simp only [normalize, h.call, h.callLen]

theorem AgreeOnOperands.normalize_power (h : AgreeOnOperands k o o') : (normalize o').power = (normalize o).power :=
  h.power

theorem AgreeOnOperands.packEnc1_eq (h : AgreeOnOperands .type1 o o') :
    packEnc1 (normalize o') o' = packEnc1 (normalize o) o := by
  have hnorm : normalize o' = normalize o := by
    simp only [normalize, h.call, h.callLen, h.power, h.loc4 rfl]
  exact congrArg packType1 hnorm

/-- Neither packer of ENC2 looks at the locator, and each looks at its own one of SFX and PFX (R71, R72). -/
theorem AgreeOnOperands.packEnc2_eq (h : AgreeOnOperands .type2 o o') :
    packEnc2 (normalize o') o' = packEnc2 (normalize o) o := by
  obtain ⟨huse, hsfx, hpfx⟩ := h.selected (by decide)
  unfold packEnc2
  rw [huse]
  cases hu : o.useSuffix with
  | true =>
    simp only [if_true]
    unfold packType2Suffix
    rw [h.normalize_callsign6, h.normalize_power, hsfx hu]
  | false =>
    simp only [Bool.false_eq_true, if_false]
    unfold packType2Pfx
    rw [h.normalize_callsign6, h.normalize_power, hpfx hu]

theorem AgreeOnOperands.composite_eq (h : AgreeOnOperands k o o') (hne : k ≠ .type1) : composite o' = composite o := by
  obtain ⟨huse, hsfx, hpfx⟩ := h.selected hne
  unfold composite
  rw [huse, h.call, h.callLen]
  cases hu : o.useSuffix with
  | true => simp only [if_true, hsfx hu]
  | false => simp only [Bool.false_eq_true, if_false, hpfx hu]

/-- ENC3's packer takes its call-sign field from LOC6 and its hash from the composite string (R73, R78). -/
theorem AgreeOnOperands.packEnc3_eq (h : AgreeOnOperands .type3 o o') :
    packEnc3 (normalize o') o' = packEnc3 (normalize o) o := by
  unfold packEnc3 packType3
  rw [h.loc6 rfl, h.composite_eq (by decide), h.normalize_power]

theorem AgreeOnOperands.encodeSymbols_eq (h : AgreeOnOperands k o o') (sync : SyncVector) :
    encodeSymbols sync (packerOf k) o' = encodeSymbols sync (packerOf k) o := by
  have hpack : packerOf k (normalize o') o' = packerOf k (normalize o) o := by
    cases k with
    | type1 => exact h.packEnc1_eq
    | type2 => exact h.packEnc2_eq
    | type3 => exact h.packEnc3_eq
  unfold encodeSymbols
  rw [h.callLen, hpack]

end

/-- Settles O29: the two snapshots agree in what the command reads, so its result is the same; SYM as it was counts where
that result is an error. -/
theorem commandsIgnoreTheOtherRegisters : Obligations.CommandsIgnoreTheOtherRegisters := by
  intro i s s' hi hb hb' hcall hcallLen hpower hsym hsync hloc4 hselected hloc6
  obtain ⟨k, rfl⟩ := (isCommand_iff i).1 hi
  have htype1 : k ≠ .type1 → commandOf k ≠ .enc1 := fun hk h => hk (commandOf_injective h)
  have hagree : AgreeOnOperands k (snapshot s) (snapshot s') :=
    { call := hcall, callLen := hcallLen, power := hpower
      loc4 := fun hk => hloc4 (congrArg commandOf hk)
      selected := fun hk => hselected (htype1 hk)
      loc6 := fun hk => hloc6 (congrArg commandOf hk) }
  refine ⟨_, _, exec_commandOf k s, exec_commandOf k s', ?_⟩
  rw [unlessBusy_of_not_busy hb, unlessBusy_of_not_busy hb', runEncode_eq_endEncode, runEncode_eq_endEncode, hsync,
    hagree.encodeSymbols_eq]
  exact ⟨endEncode_status_congr .., endEncode_sym_congr (.inl hsym)⟩

/-! ### The transactions of SETCALL -/

/-- CALL with the characters of `text` in its slots from `i` up, the others as they were. -/
def loadText (call : Vector Byte 10) (i : Nat) (text : List Char) : Vector Byte 10 :=
  Vector.ofFn fun k : Fin 10 => if i ≤ k.val then (text[k.val - i]?.map charCode).getD call[k] else call[k]

@[simp] theorem loadText_nil (call : Vector Byte 10) (i : Nat) : loadText call i [] = call := by
  apply Vector.ext
  simp [loadText]

/-- Storing the first character and then loading the rest behind it loads the whole text. -/
theorem loadText_set (call : Vector Byte 10) {i : Nat} (hi : i < 10) (c : Char) (rest : List Char) :
    loadText (call.set i (charCode c)) (i + 1) rest = loadText call i (c :: rest) := by
  apply Vector.ext
  intro k hk
  rcases lt_trichotomy k i with hlt | rfl | hgt
  · simp [loadText, hlt.not_ge, hlt.not_gt, hlt.ne']
  · simp [loadText]
  · obtain ⟨j, rfl⟩ := Nat.exists_eq_add_of_le hgt
    have hdrop : i + 1 + j - i = j + 1 := by omega
    have hlt : i < i + 1 + j := by omega
    simp [loadText, hdrop, hlt, hlt.le, hlt.ne]

/-- From slot 0 up, a slot holds its character of the text, or what it held where the text has none. -/
theorem loadText_zero (call : Vector Byte 10) (text : List Char) :
    loadText call 0 text =
      Vector.ofFn fun i : Fin 10 => if h : i.val < text.length then charCode text[i] else call[i] := by
  apply Vector.ext
  intro k hk
  by_cases h : k < text.length <;> simp [loadText, h]

theorem exec_wr_call {s : State} (hb : statusBusy s = false) {i : Nat} (hi : i < 10) (d : Byte) :
    exec (.wr (elementOffset .call i) d) s = .next (s.withCall ⟨i, hi⟩ d) := by
  have hoff : locationAt (elementOffset .call i) = .call ⟨i, hi⟩ :=
    (by decide : ∀ j : Fin 10, locationAt (elementOffset .call j) = .call j) ⟨i, hi⟩
  rw [exec_wr_of_not_busy hb, hoff]
  rfl

theorem exec_wr_callLen {s : State} (hb : statusBusy s = false) (d : Byte) :
    exec (.wr (elementOffset .callLen 0) d) s = .next (s.withCallLen d) :=
  exec_wr_of_not_busy hb _ d

theorem runAll_cons {i : Instr} {s t : State} (h : exec i s = .next t) (rest : List Instr) :
    Spec.runAll (i :: rest) s = Spec.runAll rest t := by
  rw [Spec.runAll, h]

theorem runAll_append (l l' : List Instr) (s : State) :
    Spec.runAll (l ++ l') s = (Spec.runAll l s).bind (Spec.runAll l') := by
  induction l generalizing s with
  | nil => rfl
  | cons i l ih =>
    obtain ⟨t, ht⟩ := exec_completes i s
    rw [List.cons_append, runAll_cons ht, runAll_cons ht, ih]

/-- One WR per character, from slot `i` up, while the text fits (R48). -/
theorem runAll_writeText_call (text : List Char) {s : State} {i : Nat} (hb : statusBusy s = false)
    (hfit : i + text.length ≤ 10) :
    Spec.runAll (writeText .call i text) s = some { s with call := loadText s.call i text } := by
  induction text generalizing s i with
  | nil => rw [loadText_nil]; rfl
  | cons c rest ih =>
    rw [List.length_cons] at hfit
    have hi : i < 10 := by omega
    have hrest := ih (s := s.withCall ⟨i, hi⟩ (charCode c)) (i := i + 1) hb (by omega)
    rw [writeText, runAll_cons (exec_wr_call hb hi _), hrest, ← loadText_set s.call hi]
    rfl

/-- Settles O54: the text goes to CALL character by character, then its length to CALL_LEN. -/
theorem setcallLoadsTheCallSign : Obligations.SetcallLoadsTheCallSign := by
  intro s text hb hwf
  have hfit : text.length ≤ 10 := of_decide_eq_true (Bool.and_elim_left hwf)
  have htext := runAll_writeText_call text (i := 0) hb (by omega)
  have hlen := exec_wr_callLen (s := { s with call := loadText s.call 0 text }) hb (BitVec.ofNat 8 text.length)
  rw [ScriptAction.expand, runAll_append, htext, Option.bind_some, runAll_cons hlen, ← loadText_zero]
  rfl

end Sys2Proof.Machine

/-! The codec (40_codec.md): its table over every byte, and its one error. -/

namespace Sys2Proof.Machine

theorem eq_space_iff (ch : Byte) : ch = space ↔ ch.toNat = 0x20 := BitVec.toNat_inj.symm

/-- R49's table over the numbers of the characters: the model asks for a digit before it asks for the space, and no
character is both. -/
theorem code_eq_table (ch : Byte) :
    code ch = if ch.toNat = 0x20 then 36
      else if 0x30 ≤ ch.toNat ∧ ch.toNat ≤ 0x39 then ch.toNat - 0x30
      else if 0x41 ≤ ch.toNat ∧ ch.toNat ≤ 0x5A then ch.toNat - 0x41 + 10 else 255 := by
  simp only [code, isDigit_iff, isUpper_iff, eq_space_iff, sentinel]
  by_cases hspace : ch.toNat = 0x20
  · simp [hspace]
  · simp only [hspace, if_false]

/-- R51: InvalidCharacter is the only error of `encodeChar`. -/
theorem eq_invalidCharacter_of_encodeChar {ch : Byte} {e : EncodeError} (h : encodeChar ch = .error e) :
    e = .invalidCharacter := by
  unfold encodeChar at h
  split_ifs at h
  exact (Except.error.inj h).symm

/-- `encodeChar` follows `code`: where it answers, the two agree and the sentinel is excluded; else it has its one error. -/
theorem encodeChar_eq_code (ch : Byte) :
    encodeChar ch = if code ch = sentinel then .error .invalidCharacter else .ok (code ch) := by
  by_cases hcode : code ch = sentinel
  · rw [if_pos hcode]
    cases hres : encodeChar ch with
    | ok v => exact absurd hcode ((encodeChar_ok_iff ch v).1 hres).2
    | error e => rw [eq_invalidCharacter_of_encodeChar hres]
  · rw [if_neg hcode]
    exact (encodeChar_ok_iff ch _).2 ⟨rfl, hcode⟩

/-- Settles O32: the table of `code`, and `encodeChar` as `code` with the sentinel raised. -/
theorem codecTable : Obligations.CodecTable :=
  fun ch => ⟨code_eq_table ch, encodeChar_eq_code ch⟩

end Sys2Proof.Machine

/-! The normalizer (41_normalizer.md): its character functions over every byte, the six positions of the normalized call
sign, the locator, and when normalizing again changes nothing. -/

namespace Sys2Proof.Machine

/-! ### The character functions -/

theorem isLower_iff (b : Byte) : isLower b = true ↔ 0x61 ≤ b.toNat ∧ b.toNat ≤ 0x7A := by
  simp [isLower]

theorem upper_toNat (b : Byte) :
    (upper b).toNat = if 0x61 ≤ b.toNat ∧ b.toNat ≤ 0x7A then b.toNat - 0x20 else b.toNat := by
  simp only [upper, isLower_iff]
  split
  · next hlow => exact BitVec.toNat_sub_of_le (BitVec.le_def.2 (by simp; omega))
  · rfl

theorem upper_upper (b : Byte) : upper (upper b) = upper b := by
  apply BitVec.eq_of_toNat_eq
  simp only [upper_toNat]
  split_ifs <;> omega

/-- R56 over every byte: letters and digits are kept as uppercase, all else becomes a space. -/
theorem cleanChar_toNat (b : Byte) : (cleanChar b).toNat =
    if (0x30 ≤ b.toNat ∧ b.toNat ≤ 0x39) ∨ (0x41 ≤ b.toNat ∧ b.toNat ≤ 0x5A) then b.toNat
    else if 0x61 ≤ b.toNat ∧ b.toNat ≤ 0x7A then b.toNat - 0x20 else 0x20 := by
  have hspace : space.toNat = 0x20 := rfl
  simp only [cleanChar, Bool.or_eq_true, isUpper_iff, isDigit_iff, apply_ite BitVec.toNat, upper_toNat, hspace]
  split_ifs <;> omega

theorem isDigit_cleanChar_iff (b : Byte) : isDigit (cleanChar b) = true ↔ isDigit b = true := by
  simp only [isDigit_iff, cleanChar_toNat]
  split_ifs <;> omega

theorem isUpper_cleanChar_iff (b : Byte) : isUpper (cleanChar b) = true ↔ isUpper b = true ∨ isLower b = true := by
  simp only [isUpper_iff, isLower_iff, cleanChar_toNat]
  split_ifs <;> omega

theorem not_isUpper_of_isDigit {b : Byte} (h : isDigit b = true) : ¬ isUpper b = true := by
  rw [isDigit_iff] at h
  rw [isUpper_iff]
  omega

/-- What R59 guarantees of every character of `callsign6`. -/
def IsClean (b : Byte) : Prop := b = space ∨ isDigit b = true ∨ isUpper b = true

theorem isClean_cleanChar (b : Byte) : IsClean (cleanChar b) := by
  simp only [IsClean, eq_space_iff, isDigit_iff, isUpper_iff, cleanChar_toNat]
  split_ifs <;> omega

theorem cleanChar_of_isClean {b : Byte} (h : IsClean b) : cleanChar b = b := by
  simp only [IsClean, eq_space_iff, isDigit_iff, isUpper_iff] at h
  apply BitVec.eq_of_toNat_eq
  rw [cleanChar_toNat]
  split_ifs <;> omega

/-! ### The positions of the normalized call sign -/

theorem rawChar_of_lt (call : Vector Byte 10) (len : Byte) {k : Nat} (h : k < 10) :
    rawChar call len k = if k < len.toNat then call[k] else 0x00 := by
  simp [rawChar, h]

theorem shiftsRight_iff (call : Vector Byte 10) (len : Byte) :
    shiftsRight call len = true ↔ isDigit (rawChar call len 1) = true ∧ isUpper (rawChar call len 2) = true := by
  simp [shiftsRight]

section
variable {call : Vector Byte 10} {len : Byte}

theorem cleanedChar_zero_of_shift (h : shiftsRight call len = true) : cleanedChar call len 0 = space := by
  simp only [cleanedChar, shiftedChar, h, if_true]
  rfl

theorem cleanedChar_succ_of_shift (h : shiftsRight call len = true) (k : Nat) :
    cleanedChar call len (k + 1) = cleanChar (rawChar call len k) := by
  simp [cleanedChar, shiftedChar, h]

theorem cleanedChar_of_no_shift (h : shiftsRight call len = false) (k : Nat) :
    cleanedChar call len k = cleanChar (rawChar call len k) := by
  simp [cleanedChar, shiftedChar, h]

end

/-- The special case of R57 concerns position 5 only. -/
theorem normCall_getElem_of_lt_five (call : Vector Byte 10) (len : Byte) {k : Nat} (h : k < 5) :
    (normCall call len)[k] = cleanedChar call len k := by
  rw [normCall_getElem, if_neg (by omega)]

theorem normCall_getElem_five (call : Vector Byte 10) (len : Byte) :
    (normCall call len)[5] = if cleanedChar call len 4 = space then space else cleanedChar call len 5 := by
  simp

/-- Settles O33: the positions before R57's special case, read off with and without the shift of step 1. -/
theorem normalizedCallSignPositions : Obligations.NormalizedCallSignPositions := by
  refine ⟨cleanChar_toNat, fun call len _ r hr => ?_⟩
  have hraw (k : Nat) (hk : k < 10) : rawChar call len k = r k := by rw [rawChar_of_lt call len hk, hr k hk]
  have hshift : shiftsRight call len = true ↔ isDigit (r 1) = true ∧ isUpper (r 2) = true := by
    rw [shiftsRight_iff, hraw 1 (by omega), hraw 2 (by omega)]
  refine ⟨fun h => ?_, fun h => ?_⟩
  · have hclean (k : Nat) (hk : k < 10) : cleanedChar call len (k + 1) = cleanChar (r k) := by
      rw [cleanedChar_succ_of_shift (hshift.2 h), hraw k hk]
    refine ⟨?_, fun k hk => ?_, ?_⟩
    · rw [normCall_getElem_of_lt_five call len (by omega), cleanedChar_zero_of_shift (hshift.2 h)]
      rfl
    · rw [normCall_getElem_of_lt_five call len (by omega), hclean k (by omega)]
    · rw [normCall_getElem_five, hclean 3 (by omega), hclean 4 (by omega)]
      rfl
  · have hclean (k : Nat) (hk : k < 10) : cleanedChar call len k = cleanChar (r k) := by
      rw [cleanedChar_of_no_shift (Bool.eq_false_iff.2 (mt hshift.1 h)), hraw k hk]
    refine ⟨fun k hk => ?_, ?_⟩
    · rw [normCall_getElem_of_lt_five call len hk, hclean k (by omega)]
    · rw [normCall_getElem_five, hclean 4 (by omega), hclean 5 (by omega)]
      rfl

/-! ### What a normalized call sign is -/

/-- R59's guarantee: spaces, digits and uppercase letters, and no character behind a space at position 4. -/
structure IsNormalized (v : Vector Byte 6) : Prop where
  clean : ∀ (k : Nat) (_ : k < 6), IsClean v[k]
  space_five : v[4] = space → v[5] = space

theorem isNormalized_normCall (call : Vector Byte 10) (len : Byte) : IsNormalized (normCall call len) where
  clean k hk := by
    rw [normCall_getElem]
    split
    · exact .inl rfl
    · exact isClean_cleanChar _
  space_five h := by
    rw [normCall_getElem_of_lt_five call len (by omega)] at h
    rw [normCall_getElem_five, if_pos h]

/-- Ten digits make no shift, so R59 gives no letter at positions 3 to 5. -/
theorem isDigit_normCall_digits : ∀ (k : Nat) (_ : k < 6),
    isDigit (normCall (Vector.replicate 10 0x31) 10)[k] = true := by decide +kernel

/-- Settles O34: the guarantee is `IsNormalized`; the empty call sign and one of ten digits are the non-guarantees. -/
theorem normalizedCallSignGuarantee : Obligations.NormalizedCallSignGuarantee := by
  refine ⟨fun call len => ?_, ?_, fun k hk _ => ?_⟩
  · obtain ⟨hclean, hfive⟩ := isNormalized_normCall call len
    exact ⟨hclean, hfive⟩
  · exact ⟨Vector.replicate 10 0, 0, by decide, by decide +kernel⟩
  · exact ⟨Vector.replicate 10 0x31, 10, by decide, isDigit_normCall_digits k hk⟩

/-! ### The locator -/

/-- R60's characters: digits and the letters 'A' to 'R' in either case. -/
theorem locatorCharValid_upper_iff (b : Byte) : locatorCharValid (upper b) = true ↔
    (0x30 ≤ b.toNat ∧ b.toNat ≤ 0x39) ∨ (0x41 ≤ b.toNat ∧ b.toNat ≤ 0x52) ∨ (0x61 ≤ b.toNat ∧ b.toNat ≤ 0x72) := by
  simp only [locatorCharValid, Bool.or_eq_true, Bool.and_eq_true, decide_eq_true_eq, isDigit_iff, upper_toNat]
  split_ifs <;> omega

theorem locatorAccepted_iff (loc4 : Vector Byte 4) :
    locatorAccepted loc4 = true ↔ ∀ i : Fin 4, locatorCharValid (upper loc4[i]) = true := by
  simp [locatorAccepted, Fin.forall_fin_succ, and_assoc]

/-- Settles O36: `locatorAccepted` decides between the two outcomes. -/
theorem locatorIsAllOrNothing : Obligations.LocatorIsAllOrNothing := by
  intro loc4 valid
  have haccepted : locatorAccepted loc4 = true ↔ ∀ i : Fin 4, valid loc4[i] := by
    rw [locatorAccepted_iff]
    exact forall_congr' fun i => locatorCharValid_upper_iff loc4[i]
  refine ⟨fun hvalid i => ?_, fun ⟨i, hi⟩ => ?_⟩
  · have hi : valid loc4[i] := hvalid i
    have hupper : (normLoc loc4)[i] = upper loc4[i] := normLoc_accepted (haccepted.2 hvalid) i i.isLt
    rw [hupper, upper_toNat]
    split_ifs <;> omega
  · exact normLoc_rejected (Bool.eq_false_iff.2 fun h => hi (haccepted.1 h i))

theorem normLoc_eq_self {loc4 : Vector Byte 4} (hacc : locatorAccepted loc4 = true)
    (hupper : ∀ (i : Nat) (_ : i < 4), upper loc4[i] = loc4[i]) : normLoc loc4 = loc4 := by
  ext i hi
  rw [normLoc_accepted hacc i hi, hupper i hi]

/-- R64 for the locator: an accepted one is uppercase afterwards, and the fallback is accepted and uppercase. -/
theorem normLoc_normLoc (loc4 : Vector Byte 4) : normLoc (normLoc loc4) = normLoc loc4 := by
  cases hacc : locatorAccepted loc4 with
  | true =>
    have hupper (i : Nat) (hi : i < 4) : upper (normLoc loc4)[i] = (normLoc loc4)[i] := by
      rw [normLoc_accepted hacc i hi, upper_upper]
    refine normLoc_eq_self ((locatorAccepted_iff _).2 fun i => ?_) hupper
    rw [Fin.getElem_fin, hupper i i.isLt, normLoc_accepted hacc i i.isLt]
    exact (locatorAccepted_iff loc4).1 hacc i
  | false =>
    rw [normLoc_rejected hacc]
    decide +kernel

/-! ### Normalizing again -/

theorem rawChar_asRaw (v : Vector Byte 6) {k : Nat} (h : k < 6) : rawChar (Spec.asRaw v) 6 k = v[k] := by
  rw [rawChar_of_lt _ _ (by omega), if_pos (show k < (6 : Byte).toNat from h)]
  simp [Spec.asRaw, h]

theorem normCall_asRaw_of_no_shift {v : Vector Byte 6} (hv : IsNormalized v)
    (hshift : shiftsRight (Spec.asRaw v) 6 = false) : normCall (Spec.asRaw v) 6 = v := by
  have hclean (k : Nat) (hk : k < 6) : cleanedChar (Spec.asRaw v) 6 k = v[k] := by
    rw [cleanedChar_of_no_shift hshift, rawChar_asRaw v hk, cleanChar_of_isClean (hv.clean k hk)]
  apply Vector.ext
  intro k hk
  rw [normCall_getElem, hclean 4 (by omega), hclean k hk]
  split
  · next h =>
    obtain ⟨rfl, hfour⟩ := h
    exact (hv.space_five hfour).symm
  · rfl

/-- A fixed point of a shift would have spaces at positions 0 and 1, where R55 asks for a digit at position 1. -/
theorem normCall_asRaw_ne_of_shift {v : Vector Byte 6} (hshift : shiftsRight (Spec.asRaw v) 6 = true) :
    normCall (Spec.asRaw v) 6 ≠ v := by
  intro hfix
  have hfixed (k : Nat) (hk : k < 5) : v[k] = cleanedChar (Spec.asRaw v) 6 k := by
    rw [← normCall_getElem_of_lt_five _ _ hk]
    simp only [hfix]
  have hzero : v[0] = space := by rw [hfixed 0 (by omega), cleanedChar_zero_of_shift hshift]
  have hone : v[1] = cleanChar v[0] := by
    rw [hfixed 1 (by omega), cleanedChar_succ_of_shift hshift, rawChar_asRaw v (by omega)]
  obtain ⟨hdigit, _⟩ := (shiftsRight_iff _ _).1 hshift
  rw [rawChar_asRaw v (by omega), hone, hzero] at hdigit
  exact absurd hdigit (by decide)

theorem normCall_asRaw_eq_iff {v : Vector Byte 6} (hv : IsNormalized v) :
    normCall (Spec.asRaw v) 6 = v ↔ shiftsRight (Spec.asRaw v) 6 = false := by
  refine ⟨fun hfix => ?_, normCall_asRaw_of_no_shift hv⟩
  rw [Bool.eq_false_iff]
  exact fun hshift => normCall_asRaw_ne_of_shift hshift hfix

theorem not_isLower_rawChar {call : Vector Byte 10} {len : Byte}
    (h : ∀ (k : Nat) (_ : k < 10), k < len.toNat → isLower call[k] = false) {k : Nat} (hk : k < 10) :
    ¬ isLower (rawChar call len k) = true := by
  rw [rawChar_of_lt call len hk]
  split
  · next hlen => simp [h k hk hlen]
  · decide

/-- R64: without lowercase letters step 2 makes no letter that step 1 has not seen. After a shift position 2 holds a digit;
without one, positions 1 and 2 pass R55's test only if they passed it before. -/
theorem shiftsRight_normCall_of_no_lower {call : Vector Byte 10} {len : Byte}
    (h : ∀ (k : Nat) (_ : k < 10), k < len.toNat → isLower call[k] = false) :
    shiftsRight (Spec.asRaw (normCall call len)) 6 = false := by
  rw [Bool.eq_false_iff]
  intro hagain
  obtain ⟨hdigit, hupper⟩ := (shiftsRight_iff _ _).1 hagain
  rw [rawChar_asRaw _ (by omega), normCall_getElem_of_lt_five call len (by omega)] at hdigit hupper
  cases hshift : shiftsRight call len with
  | true =>
    obtain ⟨hraw, _⟩ := (shiftsRight_iff call len).1 hshift
    rw [cleanedChar_succ_of_shift hshift] at hupper
    exact not_isUpper_of_isDigit ((isDigit_cleanChar_iff _).2 hraw) hupper
  | false =>
    rw [cleanedChar_of_no_shift hshift, isDigit_cleanChar_iff] at hdigit
    rw [cleanedChar_of_no_shift hshift, isUpper_cleanChar_iff] at hupper
    have hraw : isUpper (rawChar call len 2) = true := hupper.resolve_right (not_isLower_rawChar h (by omega))
    exact Bool.eq_false_iff.1 hshift ((shiftsRight_iff call len).2 ⟨hdigit, hraw⟩)

/-- Settles O35: a normalized call sign is a fixed point exactly without a shift, and the locator always is. -/
theorem normalizingAgain : Obligations.NormalizingAgain :=
  ⟨fun call len => normCall_asRaw_eq_iff (isNormalized_normCall call len),
    fun call len h => normCall_asRaw_of_no_shift (isNormalized_normCall call len) (shiftsRight_normCall_of_no_lower h),
    ⟨by decide +kernel, by decide +kernel⟩, normLoc_normLoc⟩

end Sys2Proof.Machine

/-! The packer (42_packer.md): the call-sign-shaped field `n`, the values of the locator and of PFX, the field `m` modulo 2^22,
and the bits of the serialized payload. -/

namespace Sys2Proof.Machine

/-! ### The field n -/

theorem positionsValid_iff (ch : Vector Byte 6) : positionsValid ch = true ↔ Spec.Packs ch := by
  simp [positionsValid, Spec.Packs, sentinel, Fin.forall_fin_succ, and_assoc]

theorem packNValue_eq_nOf (ch : Vector Byte 6) : packNValue ch = Spec.nOf ch := rfl

/-- Settles O37: `packN` raises its one error where `Packs` fails. -/
theorem packNChecksPositions : Obligations.PackNChecksPositions := by
  intro ch
  refine ⟨?_, fun e he => ((packN_error_iff ch e).1 he).2⟩
  have herror : packN ch = .error .invalidCharacter ↔ ¬ Spec.Packs ch := by
    rw [packN_error_iff, ← Bool.not_eq_true, positionsValid_iff, and_iff_left rfl]
  rw [herror]
  simp only [Spec.Packs, not_and_or, not_forall, not_ne_iff, not_le]

theorem code_le_of_ne_sentinel {ch : Byte} (h : code ch ≠ 255) : code ch ≤ 36 := by
  rw [code_eq_table] at h ⊢
  split_ifs at h ⊢ <;> omega

theorem code_le_of_ne_space {ch : Byte} (h : code ch ≠ 255) (hspace : ch ≠ space) : code ch ≤ 35 := by
  rw [Ne, eq_space_iff] at hspace
  rw [code_eq_table] at h ⊢
  split_ifs at h ⊢ <;> omega

/-- `n` grows with every code, so a bound on the codes bounds it by the value of a string of largest codes. -/
theorem nOf_le_of_code_le {ch : Vector Byte 6} {k : Nat} (hk : ∀ i : Fin 6, code ch[i] ≤ k) (htwo : code ch[2] ≤ 9) :
    Spec.nOf ch ≤ ((((k * 36 + k) * 10 + 9) * 27 + (k - 10)) * 27 + (k - 10)) * 27 + (k - 10) := by
  unfold Spec.nOf
  gcongr
  exacts [hk 0, hk 1, hk 3, hk 4, hk 5]

/-- Settles O38: the codes are at most 36, and at most 35 without a space. -/
theorem packNFitsItsField : Obligations.PackNFitsItsField := by
  refine ⟨fun ch n hn => ?_, by decide +kernel, by decide +kernel⟩
  obtain ⟨hvalid, rfl⟩ := (packN_ok_iff ch n).1 hn
  obtain ⟨hcodes, htwo, _⟩ := (positionsValid_iff ch).1 hvalid
  have hmax : Spec.nOf ch ≤ 262374389 := nOf_le_of_code_le (fun i => code_le_of_ne_sentinel (hcodes i)) htwo
  refine ⟨?_, hmax, fun hspace => nOf_le_of_code_le (fun i => code_le_of_ne_space (hcodes i) (hspace i)) htwo⟩
  rw [packNValue_eq_nOf, BitVec.toNat_ofNat, Nat.mod_eq_of_lt (by omega)]

/-! ### The locator value -/

/-- R69's value to base 180: the first and third characters fix the high place, the second and fourth the low one, each
with its digit last. -/
theorem exists_places_of_locatorPacks {loc : Vector Byte 4} (h : Spec.LocatorPacks loc) :
    ∃ high low, high ≤ 179 ∧ low ≤ 179 ∧ locVal loc = high * 180 + low ∧
      10 * loc[0].toNat + loc[2].toNat + high = 10 * 0x41 + 0x30 + 179 ∧
      10 * loc[1].toNat + loc[3].toNat = 10 * 0x41 + 0x30 + low := by
  obtain ⟨hzero, hone, htwo, hthree⟩ := h
  refine ⟨179 - 10 * (loc[0].toNat - 0x41) - (loc[2].toNat - 0x30),
    10 * (loc[1].toNat - 0x41) + (loc[3].toNat - 0x30), ?_, ?_, ?_, ?_, ?_⟩
  · omega
  · omega
  · rw [locVal, Nat.add_assoc]
  · omega
  · omega

/-- Two locators of one value agree in both places, and a place determines its two characters. -/
theorem locVal_injective {loc loc' : Vector Byte 4} (h : Spec.LocatorPacks loc) (h' : Spec.LocatorPacks loc')
    (heq : locVal loc = locVal loc') : loc = loc' := by
  obtain ⟨high, low, _, hlow, hval, hhighChars, hlowChars⟩ := exists_places_of_locatorPacks h
  obtain ⟨high', low', _, hlow', hval', hhighChars', hlowChars'⟩ := exists_places_of_locatorPacks h'
  obtain ⟨rfl, rfl⟩ : high = high' ∧ low = low' := by omega
  obtain ⟨-, -, htwo, hthree⟩ := h
  obtain ⟨-, -, htwo', hthree'⟩ := h'
  apply Vector.ext
  intro i hi
  apply BitVec.eq_of_toNat_eq
  interval_cases i <;> omega

/-- Settles O39: the value is a number of two places to base 180. -/
theorem locatorValueIsOneToOne : Obligations.LocatorValueIsOneToOne := by
  refine ⟨fun loc h => ?_, fun _ _ => locVal_injective, by decide +kernel, by decide +kernel⟩
  obtain ⟨high, low, hhigh, hlow, hval, hhighChars, hlowChars⟩ := exists_places_of_locatorPacks h
  constructor
  · unfold Spec.locOf
    omega
  · omega

/-! ### The field m -/

/-- R74: `trunc_22` is the residue, for negative values as well. -/
theorem trunc22_toNat (v : Int) : ((trunc22 v).toNat : Int) = v % 4194304 := by
  rw [trunc22, BitVec.toNat_ofInt]
  omega

theorem trunc22_toNat_of_eq {v : Int} {k : Nat} (hv : v = k) (hk : k < 4194304) : (trunc22 v).toNat = k := by
  have hres := trunc22_toNat v
  omega

/-- R73 modulo 2^22: bits 0 to 14 of the hash stay, and `63 - power` borrows nothing from them. -/
theorem trunc22_hashField_of_power_le (h : BitVec 16) {power : Byte} (hp : power.toNat ≤ 63) :
    (trunc22 (hashField h power)).toNat = 128 * (h.toNat % 32768) + (63 - power.toNat) := by
  have hres := trunc22_toNat (hashField h power)
  unfold hashField at hres ⊢
  omega

/-- A negative value wraps (R109). -/
theorem trunc22_hashField_zero {power : Byte} (hp : 63 < power.toNat) :
    (trunc22 (hashField 0 power)).toNat = 4194304 + 63 - power.toNat := by
  have hres := trunc22_toNat (hashField 0 power)
  have hlt : power.toNat < 256 := power.isLt
  have hzero : (0 : BitVec 16).toNat = 0 := rfl
  rw [hashField, hzero] at hres ⊢
  omega

/-- Settles O41: each clause takes the residue of its formula, and a value within 0 to 2^22 - 1 is its own residue. -/
theorem fieldMIsTheResidue : Obligations.FieldMIsTheResidue := by
  have hbyte (power : Byte) : power.toNat < 256 := power.isLt
  refine ⟨trunc22_toNat, fun h power => trunc22_toNat (hashField h power), fun h _ => trunc22_hashField_of_power_le h,
    fun _ => trunc22_hashField_zero, fun v power hv => ?_, fun v power hv => ?_⟩
  · have hp := hbyte power
    exact trunc22_toNat_of_eq (by push_cast; rfl) (by omega)
  · have hp := hbyte power
    exact trunc22_toNat_of_eq (by push_cast; rfl) (by omega)

/-! ### The value of PFX -/

/-- R72: PFX has a value only where every character has a code. -/
theorem pfxValue_eq_ok {pfx : Vector Byte 3} {g : Nat} (h : pfxValue pfx = .ok g) :
    Spec.PfxPacks pfx ∧ g = (code pfx[0] * 37 + code pfx[1]) * 37 + code pfx[2] := by
  unfold pfxValue at h
  split at h
  · contradiction
  · next e0 h0 =>
    split at h
    · contradiction
    · next e1 h1 =>
      split at h
      · contradiction
      · next e2 h2 =>
        obtain ⟨rfl, hcode0⟩ := (encodeChar_ok_iff _ _).1 h0
        obtain ⟨rfl, hcode1⟩ := (encodeChar_ok_iff _ _).1 h1
        obtain ⟨rfl, hcode2⟩ := (encodeChar_ok_iff _ _).1 h2
        refine ⟨fun i => ?_, (Except.ok.inj h).symm⟩
        match i with
        | 0 => exact hcode0
        | 1 => exact hcode1
        | 2 => exact hcode2

/-- The residues of R72 on both sides of the split, before any of them is known to fit. -/
theorem trunc22_pfxField (g : Nat) (power : Byte) : (trunc22 (pfxField g power)).toNat =
    (if 32767 < g then (g - 32768) * 128 + power.toNat + 66 else g * 128 + power.toNat + 65) % 4194304 := by
  have hres := trunc22_toNat (pfxField g power)
  simp only [pfxField, pfxSplit] at hres ⊢
  split_ifs at hres ⊢ <;> omega

/-- R72: with a power of at most 60 both halves fit, the lower one ending at 4194301. -/
theorem trunc22_pfxField_of_power_le {g : Nat} {power : Byte} (hg : g ≤ 50652) (hp : power.toNat ≤ 60) :
    ((trunc22 (pfxField g power)).toNat : Int) = pfxField g power := by
  rw [trunc22_toNat]
  apply Int.emod_eq_of_lt <;> simp only [pfxField, pfxSplit] <;> split_ifs <;> omega

/-- Settles O40: no code is above 36, and the residues on both sides of the split. -/
theorem pfxValueSplitsAtItsBoundary : Obligations.PfxValueSplitsAtItsBoundary := by
  refine ⟨fun pfx g hg => ?_, fun power => ?_, fun g power => trunc22_pfxField_of_power_le⟩
  · obtain ⟨hcodes, rfl⟩ := pfxValue_eq_ok hg
    have hle (i : Fin 3) : code pfx[i] ≤ 36 := code_le_of_ne_sentinel (hcodes i)
    have hle0 : code pfx[0] ≤ 36 := hle 0
    have hle1 : code pfx[1] ≤ 36 := hle 1
    have hle2 : code pfx[2] ≤ 36 := hle 2
    exact ⟨by push_cast [Spec.gOf]; rfl, by omega⟩
  · have hp : power.toNat < 256 := power.isLt
    constructor
    · rw [trunc22_pfxField, if_neg (by decide)]
      omega
    · rw [trunc22_pfxField, if_pos (by decide)]
      omega

/-! ### The serialized payload -/

/-- R75: the 88 bits of the payload in one row, `n` at the top. -/
def payloadBits (p : Payload) : BitVec 88 := p.n ++ p.m ++ 0#38

theorem payloadBits_getLsbD (p : Payload) (i : Nat) : (payloadBits p).getLsbD i =
    if i < 38 then false else if i < 60 then p.m.getLsbD (i - 38) else p.n.getLsbD (i - 60) := by
  have hm : i - 38 < 22 ↔ i < 60 := by omega
  simp only [payloadBits, BitVec.getLsbD_append, BitVec.getLsbD_zero, Nat.sub_sub, hm]

theorem payloadBits_toNat (p : Payload) : (payloadBits p).toNat = p.n.toNat * 2 ^ 60 + p.m.toNat * 2 ^ 38 := by
  simp only [payloadBits, toNat_append_eq_add, BitVec.toNat_ofNat]
  omega

/-- Byte `i` of the buffer is the `i`-th byte of the row from its top: the same quotient of the row's number. -/
theorem serialize_getElem (p : Payload) {i : Nat} (hi : i < 11) :
    (serialize p)[i] = (payloadBits p).extractLsb' (8 * (10 - i)) 8 := by
  apply BitVec.eq_of_toNat_eq
  have hn := p.n.isLt
  have hm := p.m.isLt
  have hzero : (0 : Byte).toNat = 0 := rfl
  rw [BitVec.extractLsb'_toNat, payloadBits_toNat, Nat.shiftRight_eq_div_pow]
  interval_cases i <;>
    simp only [serialize, Vector.getElem_mk, List.getElem_toArray, List.getElem_cons_zero, List.getElem_cons_succ,
      toNat_append_eq_add, BitVec.extractLsb'_toNat, BitVec.toNat_ofNat, Nat.shiftRight_eq_div_pow, hzero] <;>
    omega

/-- R38: payload bit `t` is counted from the top of the row. -/
theorem inputBit_serialize (p : Payload) {t : Nat} (ht : t < 88) :
    inputBit (serialize p) t = (payloadBits p).getLsbD (87 - t) := by
  have hbyte : t / 8 < 11 := by omega
  have hindex : 8 * (10 - t / 8) + (7 - t % 8) = 87 - t := by omega
  have hbit : 7 - t % 8 < 8 := by omega
  rw [inputBit, Vector.getElem?_eq_getElem hbyte, Option.getD_some, serialize_getElem p hbyte,
    BitVec.getLsbD_extractLsb', hindex, decide_eq_true hbit, Bool.true_and]

/-- Settles O42: the row read from its top. -/
theorem serializedPayloadLayout : Obligations.SerializedPayloadLayout := by
  intro p t ht
  rw [inputBit_serialize p ht, payloadBits_getLsbD]
  by_cases hn : t < 28
  · rw [if_pos hn, if_neg (by omega), if_neg (by omega), Nat.sub_right_comm]
  · rw [if_neg hn]
    by_cases hm : t < 50
    · rw [if_pos hm, if_neg (by omega), if_pos (by omega), Nat.sub_right_comm]
    · rw [if_neg hm, if_pos (by omega)]

/-- The fields stand in the first 50 payload bits, so these determine the payload. -/
theorem payload_eq_of_inputBit {p q : Payload}
    (h : ∀ t < 50, inputBit (serialize p) t = inputBit (serialize q) t) : p = q := by
  have hrow (i : Nat) (hlow : 38 ≤ i) (hhigh : i < 88) : (payloadBits p).getLsbD i = (payloadBits q).getLsbD i := by
    have hbit := h (87 - i) (by omega)
    rwa [inputBit_serialize p (by omega), inputBit_serialize q (by omega), Nat.sub_sub_self (by omega)] at hbit
  obtain ⟨n, m⟩ := p
  obtain ⟨n', m'⟩ := q
  simp only [payloadBits_getLsbD] at hrow
  congr 1
  · apply BitVec.eq_of_getLsbD_eq
    intro i hi
    have hbit := hrow (i + 60) (by omega) (by omega)
    rwa [if_neg (by omega), if_neg (by omega), Nat.add_sub_cancel, if_neg (by omega), if_neg (by omega)] at hbit
  · apply BitVec.eq_of_getLsbD_eq
    intro i hi
    have hbit := hrow (i + 38) (by omega) (by omega)
    rwa [if_neg (by omega), if_pos (by omega), Nat.add_sub_cancel, if_neg (by omega), if_pos (by omega)] at hbit

end Sys2Proof.Machine

/-! What the stages behind the packer keep of their input (44_convolutional_encoder.md, 45_interleaver.md,
46_sync_merger.md): each is one to one, so the symbols determine the payload. -/

namespace Sys2Proof.Machine

/-! ### The convolutional encoder -/

theorem odd_add_ite (n : Nat) (b : Bool) : ((n + if b = true then 1 else 0) % 2 == 1) = ((n % 2 == 1) ^^ b) := by
  cases b <;> obtain hn | hn := Nat.mod_two_eq_zero_or_one n <;> simp [Nat.add_mod, hn]

/-- Counting modulo 2 is additive for exclusive-or. -/
theorem odd_countP_xor {α : Type} (f g : α → Bool) (l : List α) :
    (l.countP (fun x => f x ^^ g x) % 2 == 1) = ((l.countP f % 2 == 1) ^^ (l.countP g % 2 == 1)) := by
  induction l with
  | nil => rfl
  | cons x l ih =>
    simp only [List.countP_cons, odd_add_ite, ih]
    simp only [Bool.xor_assoc, Bool.xor_left_comm]

theorem parity_xor (x y : Word32) : parity (x ^^^ y) = (parity x ^^ parity y) := by
  simp only [parity, popcount, BitVec.getLsbD_xor]
  exact odd_countP_xor _ _ _

theorem xor_and_distrib (x y mask : Word32) : (x ^^^ y) &&& mask = (x &&& mask) ^^^ (y &&& mask) := by
  apply BitVec.eq_of_getLsbD_eq
  intro i _
  simp only [BitVec.getLsbD_and, BitVec.getLsbD_xor, Bool.and_xor_distrib_right]

/-- The new bit enters at bit 0, which the shift has left 0. -/
theorem shiftIn_eq_xor (reg : Word32) (u : Bool) : shiftIn reg u = (reg <<< 1) ^^^ (BitVec.ofBool u).setWidth 32 := by
  apply BitVec.eq_of_getLsbD_eq
  intro i hi
  cases i <;> simp [shiftIn]

/-- R87 with POLY0: its tap at bit 0 adds the new bit to a parity of the earlier ones. -/
theorem parity_shiftIn_poly0 (reg : Word32) (u : Bool) :
    parity (shiftIn reg u &&& poly0) = (parity ((reg <<< 1) &&& poly0) ^^ u) := by
  have hnew : parity ((BitVec.ofBool u).setWidth 32 &&& poly0) = u := by
    cases u <;> decide +kernel
  rw [shiftIn_eq_xor, xor_and_distrib, parity_xor, hnew]

/-- From given registers the output bits determine the input bits, one pair of outputs at a time. -/
theorem convLoop_injective {us vs : List Bool} (reg0 reg1 : Word32) (h : convLoop reg0 reg1 us = convLoop reg0 reg1 vs) :
    us = vs := by
  induction us generalizing reg0 reg1 vs with
  | nil =>
    cases vs with
    | nil => rfl
    | cons v vs => simp [convLoop] at h
  | cons u us ih =>
    cases vs with
    | nil => simp [convLoop] at h
    | cons v vs =>
      simp only [convLoop, List.cons.injEq, parity_shiftIn_poly0, Bool.xor_right_inj] at h
      obtain ⟨rfl, -, hrest⟩ := h
      rw [ih _ _ hrest]

/-- R89's first half: equal outputs come from equal input bits. -/
theorem inputBit_eq_of_convEncode_eq {a b : Vector Byte 11} (h : convEncode a = convEncode b) :
    ∀ t < 81, inputBit a t = inputBit b t := by
  have hloop : convLoop 0 0 (inputBits a) = convLoop 0 0 (inputBits b) := by
    rw [← convEncode_toList, h, convEncode_toList]
  have hbits : inputBits a = inputBits b := convLoop_injective 0 0 hloop
  intro t ht
  exact List.map_inj_left.1 hbits t (List.mem_range.2 ht)

/-! ### The interleaver -/

/-- The positions the pass of R92 over the indices `js` writes, in its order. -/
def destinations (js : List Nat) : List Nat := (js.map rev8).filter (· < 162)

theorem destinations_cons_lt {j : Nat} (js : List Nat) (h : rev8 j < 162) :
    destinations (j :: js) = rev8 j :: destinations js := by
  simp [destinations, h]

theorem destinations_cons_ge {j : Nat} (js : List Nat) (h : ¬ rev8 j < 162) :
    destinations (j :: js) = destinations js := by
  simp [destinations, Nat.not_lt.1 h]

/-- R94: the positions of the whole pass are the printed table. -/
theorem destinations_range : destinations (List.range 255) = destTable := by decide +kernel

theorem destTable_length : destTable.length = 162 := by decide +kernel

theorem destTable_nodup : destTable.Nodup := by decide +kernel

/-- A position the rest of the pass does not write keeps its bit. -/
theorem placeBits_getElem?_of_notMem {js : List Nat} {bits : List Bool} {d : Vector Bool 162} {q : Nat}
    (hq : q ∉ destinations js) : (placeBits js bits d)[q]? = d[q]? := by
  induction js generalizing bits d with
  | nil => rfl
  | cons j js ih =>
    by_cases hj : rev8 j < 162
    · rw [destinations_cons_lt js hj, List.mem_cons, not_or] at hq
      obtain ⟨hne, hq⟩ := hq
      cases bits with
      | nil => simp [placeBits, hj]
      | cons b bits =>
        rw [placeBits_cons_lt _ _ _ _ _ hj, ih hq, Vector.getElem?_set_ne hj (Ne.symm hne)]
    · rw [destinations_cons_ge js hj] at hq
      rw [placeBits_cons_ge _ _ _ _ hj, ih hq]

/-- R92: the `k`-th bit goes to the `k`-th position of the pass, and no later bit overwrites it. -/
theorem placeBits_getElem?_destination {js : List Nat} {bits : List Bool} {d : Vector Bool 162} {k q : Nat} {b : Bool}
    (hnodup : (destinations js).Nodup) (hq : (destinations js)[k]? = some q) (hb : bits[k]? = some b) :
    (placeBits js bits d)[q]? = some b := by
  induction js generalizing bits d k with
  | nil => simp [destinations] at hq
  | cons j js ih =>
    by_cases hj : rev8 j < 162
    · rw [destinations_cons_lt js hj] at hnodup hq
      obtain ⟨hnotMem, hnodup⟩ := List.nodup_cons.1 hnodup
      cases bits with
      | nil => simp at hb
      | cons c bits =>
        rw [placeBits_cons_lt _ _ _ _ _ hj]
        cases k with
        | zero =>
          obtain rfl : rev8 j = q := by simpa using hq
          obtain rfl : c = b := by simpa using hb
          rw [placeBits_getElem?_of_notMem hnotMem]
          simp [hj]
        | succ k => exact ih hnodup (by simpa using hq) (by simpa using hb)
    · rw [destinations_cons_ge js hj] at hnodup hq
      rw [placeBits_cons_ge _ _ _ _ hj]
      exact ih hnodup hq hb

/-- R94: input bit `p` lands at DEST[p]. -/
theorem interleave_getElem?_destTable (s : Vector Bool 162) {p : Nat} (hp : p < 162) :
    (interleave s)[destTable.getD p 0]? = some s[p] := by
  apply placeBits_getElem?_destination (k := p)
  · rw [destinations_range]
    exact destTable_nodup
  · rw [destinations_range, List.getD_eq_getElem _ _ (destTable_length ▸ hp), List.getElem?_eq_getElem]
  · simp [hp]

theorem interleave_injective : Function.Injective interleave := by
  intro s s' h
  apply Vector.ext
  intro p hp
  have hdest := interleave_getElem?_destTable s hp
  rw [h, interleave_getElem?_destTable s' hp] at hdest
  exact (Option.some.inj hdest).symm

/-! ### The sync merger and the whole chain -/

theorem symbol_right_injective : ∀ y : Bool, Function.Injective (symbol y) := by decide

theorem syncMerge_injective (sync : SyncVector) : Function.Injective (syncMerge sync) := by
  intro d d' h
  apply Vector.ext
  intro i hi
  apply symbol_right_injective sync[i]
  rw [← syncMerge_getElem sync d i hi, ← syncMerge_getElem sync d' i hi]
  simp only [h]

/-- Settles O53: the stages are undone from the last to the first. -/
theorem symbolStreamDeterminesPayload : Obligations.SymbolStreamDeterminesPayload := by
  intro sync p q h
  have hparity : convEncode (serialize p) = convEncode (serialize q) :=
    interleave_injective (syncMerge_injective sync h)
  exact payload_eq_of_inputBit fun t ht => inputBit_eq_of_convEncode_eq hparity t (by omega)

end Sys2Proof.Machine

/-! The call-sign hasher (43_hasher.md): the text of a suffix code, the composite string with its length, the lengths it
takes and the seeds they give. -/

namespace Sys2Proof.Machine

/-! ### The suffix text -/

/-- Settles O43: the branches of `suffixText` in the order of R77's table; the letters count from 0x41 less ten, R77's 55. -/
theorem suffixTextTable : Obligations.SuffixTextTable := by
  intro sfx
  unfold suffixText Spec.textOf
  rcases (by omega : sfx.toNat ≤ 9 ∨ (10 ≤ sfx.toNat ∧ sfx.toNat ≤ 35) ∨ (36 ≤ sfx.toNat ∧ sfx.toNat ≤ 81) ∨
    82 ≤ sfx.toNat) with digit | letter | twoDigits | above
  · simp [digit, show sfx.toNat ≤ 81 by omega, show sfx.toNat < 10 by omega]
  · have hcode : 0x41 + sfx.toNat - 10 = 55 + sfx.toNat := by omega
    simp [letter, hcode, show ¬ sfx.toNat ≤ 9 by omega, show sfx.toNat ≤ 81 by omega,
      show ¬ sfx.toNat < 10 by omega, show sfx.toNat < 36 by omega]
  · simp [twoDigits, suffixMax, show ¬ sfx.toNat ≤ 9 by omega, show ¬ sfx.toNat ≤ 35 by omega,
      show ¬ sfx.toNat < 10 by omega, show ¬ sfx.toNat < 36 by omega]
  · simp [suffixMax, show ¬ sfx.toNat ≤ 9 by omega, show ¬ sfx.toNat ≤ 35 by omega,
      show ¬ sfx.toNat ≤ 81 by omega]

theorem suffixText_of_le {sfx : Byte} (h : sfx.toNat ≤ 81) : suffixText sfx = .ok (Spec.textOf sfx.toNat) :=
  (suffixTextTable sfx).trans (if_pos h)

theorem suffixText_of_gt {sfx : Byte} (h : 81 < sfx.toNat) : suffixText sfx = .error .invalidCallSign :=
  (suffixTextTable sfx).trans (if_neg (Nat.not_le.2 h))

theorem textOf_length (v : Nat) : (Spec.textOf v).length = if v ≤ 35 then 1 else 2 := by
  unfold Spec.textOf
  by_cases digit : v < 10
  · simp [digit, show v ≤ 35 by omega]
  · simp only [digit, if_false, ← Nat.lt_succ_iff (n := 35)]
    split <;> rfl

/-! ### The composite string -/

section
variable {o : Snapshot}

theorem composite_of_pfx (hu : o.useSuffix = false) :
    composite o = .ok (o.pfx.toList ++ slash :: rawCall o.call o.callLen) := by
  simp [composite, hu]

theorem composite_of_suffix (hu : o.useSuffix = true) (hs : o.sfx.toNat ≤ 81) :
    composite o = .ok (rawCall o.call o.callLen ++ slash :: Spec.textOf o.sfx.toNat) := by
  simp [composite, hu, suffixText_of_le hs]

theorem composite_of_suffix_gt (hu : o.useSuffix = true) (hs : 81 < o.sfx.toNat) :
    composite o = .error .invalidCallSign := by
  simp [composite, hu, suffixText_of_gt hs]

/-- R77, R78: only a suffix code above 81, where it counts, leaves a snapshot without a composite string. -/
theorem exists_composite_iff : (∃ comp, composite o = .ok comp) ↔ (o.useSuffix = true → o.sfx.toNat ≤ 81) := by
  cases hu : o.useSuffix with
  | false => simp [composite_of_pfx hu]
  | true =>
    rcases Nat.lt_or_ge 81 o.sfx.toNat with hs | hs
    · simp [composite_of_suffix_gt hu hs, hs]
    · simp [composite_of_suffix hu hs, hs]

theorem rawCall_length {len : Byte} (hlen : len.toNat ≤ 10) (call : Vector Byte 10) :
    (rawCall call len).length = len.toNat := by
  simp [rawCall, hlen]

theorem compLength_of_pfx (hu : o.useSuffix = false) : Spec.compLength o = o.callLen.toNat + 4 := by
  rw [Spec.compLength, show o.flags.getLsbD 0 = false from hu]; rfl

theorem compLength_of_suffix (hu : o.useSuffix = true) :
    Spec.compLength o = o.callLen.toNat + (if o.sfx.toNat ≤ 35 then 2 else 3) := by
  rw [Spec.compLength, show o.flags.getLsbD 0 = true from hu]; rfl

/-- R78: the three bytes of PFX or the suffix text, the solidus, and CALL_LEN bytes of call sign. -/
theorem composite_length (hlen : o.callLen.toNat ≤ 10) {comp : List Byte} (h : composite o = .ok comp) :
    comp.length = Spec.compLength o := by
  have hcall : (rawCall o.call o.callLen).length = o.callLen.toNat := rawCall_length hlen o.call
  cases hu : o.useSuffix with
  | false =>
    rw [composite_of_pfx hu] at h
    cases h
    simp only [compLength_of_pfx hu, List.length_append, List.length_cons, Vector.length_toList, hcall]
    omega
  | true =>
    have hs : o.sfx.toNat ≤ 81 := exists_composite_iff.1 ⟨comp, h⟩ hu
    rw [composite_of_suffix hu hs] at h
    cases h
    simp only [compLength_of_suffix hu, List.length_append, List.length_cons, textOf_length, hcall]
    split <;> rfl

end

/-! ### The lengths the hasher takes -/

theorem hash16_of_unsupported_length {comp : List Byte} (h : comp.length < 3 ∨ 10 < comp.length) :
    hash16 comp = .error .invalidCallSign := by
  have hrange : comp.length < hashLenMin ∨ hashLenMax < comp.length := h
  simp [hash16, hrange]

theorem exists_hash16_iff (comp : List Byte) : (∃ h, hash16 comp = .ok h) ↔ 3 ≤ comp.length ∧ comp.length ≤ 10 := by
  constructor
  · rintro ⟨h, hh⟩
    by_contra hlen
    rw [hash16_of_unsupported_length (by omega)] at hh
    cases hh
  · rintro ⟨hmin, hmax⟩
    exact ⟨_, hash16_of_length hmin hmax⟩

/-- R78, R79: a snapshot is hashed when its suffix code, where it counts, has a text and the composite's length is taken. -/
theorem exists_composite_hash16_iff {o : Snapshot} (hlen : o.callLen.toNat ≤ 10) :
    (∃ comp h, composite o = .ok comp ∧ hash16 comp = .ok h) ↔
      (o.useSuffix = true → o.sfx.toNat ≤ 81) ∧ 3 ≤ Spec.compLength o ∧ Spec.compLength o ≤ 10 := by
  constructor
  · rintro ⟨comp, h, hcomp, hh⟩
    rw [← composite_length hlen hcomp]
    exact ⟨exists_composite_iff.1 ⟨comp, hcomp⟩, (exists_hash16_iff comp).1 ⟨h, hh⟩⟩
  · rintro ⟨hs, hwindow⟩
    obtain ⟨comp, hcomp⟩ := exists_composite_iff.2 hs
    rw [← composite_length hlen hcomp] at hwindow
    obtain ⟨h, hh⟩ := (exists_hash16_iff comp).2 hwindow
    exact ⟨comp, h, hcomp, hh⟩

/-- Settles O44: R79's windows are the lengths 3 to 10 less the four, two or three bytes beside the call sign. -/
theorem compositeLengthWindow : Obligations.CompositeLengthWindow := by
  refine ⟨fun comp => ⟨hash16_of_unsupported_length, fun hmin hmax => (exists_hash16_iff comp).2 ⟨hmin, hmax⟩⟩,
    fun o hlen => ?_⟩
  rw [exists_composite_hash16_iff hlen]
  cases hu : o.useSuffix with
  | false =>
    simp only [compLength_of_pfx hu, Bool.false_eq_true, if_false, false_implies, true_and]
    omega
  | true =>
    simp only [compLength_of_suffix hu, if_true, true_implies]
    split <;> omega

/-! ### The seeds -/

/-- R80: the two constants of the seed in one. -/
theorem hashSeedOf_eq (n : Nat) : hashSeedOf n = 0xDEADBF81 + BitVec.ofNat 32 n := by
  have hconst : hashSeed + hashInit = 0xDEADBF81 := rfl
  rw [hashSeedOf, add_right_comm, hconst]

/-- Settles O45: the list counts up from 0xDEADBF84, the constant at length 3. -/
theorem hashSeeds : Obligations.HashSeeds := by
  simp only [Obligations.HashSeeds, hashSeedOf_eq]
  rfl

end Sys2Proof.Machine

/-! The convolutional encoder as a convolution (44_convolutional_encoder.md): what the shift registers hold, the outputs
as tap parities, and from these its linearity and the input bits it reads. -/

namespace Sys2Proof.Machine

/-! ### What a shift register holds -/

/-- A register of R87 after the first `t` bits of the stream `u`, from the zero start of R86. -/
def registerAfter (u : Nat → Bool) (t : Nat) : Word32 := ((List.range t).map u).foldl shiftIn 0

theorem registerAfter_succ (u : Nat → Bool) (t : Nat) :
    registerAfter u (t + 1) = shiftIn (registerAfter u t) (u t) := by
  simp [registerAfter, List.range_succ]

theorem shiftIn_getLsbD_zero (reg : Word32) (u : Bool) : (shiftIn reg u).getLsbD 0 = u := by
  simp [shiftIn]

theorem shiftIn_getLsbD_succ (reg : Word32) (u : Bool) {i : Nat} (hi : i + 1 < 32) :
    (shiftIn reg u).getLsbD (i + 1) = reg.getLsbD i := by
  have hlow : i < 32 := by omega
  simp [shiftIn, hi, BitVec.getLsbD_eq_getElem hlow]

/-- R87: after step `k` bit `i` of either register is the input bit of step `k - i`, and 0 where there was none. -/
theorem registerAfter_succ_getLsbD (u : Nat → Bool) (k : Nat) {i : Nat} (hi : i < 32) :
    (registerAfter u (k + 1)).getLsbD i = (decide (i ≤ k) && u (k - i)) := by
  induction k generalizing i with
  | zero =>
    rw [registerAfter_succ]
    cases i with
    | zero => exact shiftIn_getLsbD_zero _ _
    | succ i => rw [shiftIn_getLsbD_succ _ _ hi]; simp [registerAfter]
  | succ k ih =>
    rw [registerAfter_succ]
    cases i with
    | zero => exact shiftIn_getLsbD_zero _ _
    | succ i => rw [shiftIn_getLsbD_succ _ _ hi, ih (by omega)]; simp

/-! ### The outputs as tap parities -/

/-- The step after the bits `us` emits its pair behind the pairs of `us`. -/
theorem convLoop_getElem?_step (reg0 reg1 : Word32) (us : List Bool) (u : Bool) (vs : List Bool) :
    (convLoop reg0 reg1 (us ++ u :: vs))[2 * us.length]? = some (parity (shiftIn (us.foldl shiftIn reg0) u &&& poly0)) ∧
    (convLoop reg0 reg1 (us ++ u :: vs))[2 * us.length + 1]? =
      some (parity (shiftIn (us.foldl shiftIn reg1) u &&& poly1)) := by
  rw [convLoop_append, ← convLoop_length reg0 reg1 us, List.getElem?_append_right (le_refl _),
    List.getElem?_append_right (Nat.le_add_right _ 1), Nat.sub_self, Nat.add_sub_cancel_left]
  exact ⟨rfl, rfl⟩

theorem inputBits_eq_append (buf : Vector Byte 11) {k : Nat} (hk : k < 81) :
    ∃ vs, inputBits buf = (List.range k).map (inputBit buf) ++ inputBit buf k :: vs := by
  obtain ⟨d, hd⟩ : ∃ d, inputBitCount = k + (d + 1) := ⟨80 - k, by unfold inputBitCount; omega⟩
  rw [inputBits, hd, List.range_add, List.map_append, List.range_succ_eq_map]
  exact ⟨_, rfl⟩

/-- The tap parity of R87 is the parity of the masked register. -/
theorem parity_registerAfter_and (mask : Word32) (buf : Vector Byte 11) (k : Nat) :
    parity (registerAfter (inputBit buf) (k + 1) &&& mask) = Spec.tapParity mask buf k := by
  have htap : ∀ i ∈ List.range 32, (registerAfter (inputBit buf) (k + 1) &&& mask).getLsbD i =
      (decide (i ≤ k) && mask.getLsbD i && inputBit buf (k - i)) := by
    intro i hi
    rw [BitVec.getLsbD_and, registerAfter_succ_getLsbD _ _ (List.mem_range.1 hi), Bool.and_right_comm]
  rw [parity, popcount, Spec.tapParity, List.countP_congr fun i hi => by rw [htap i hi]]

/-- Settles O46: the pair of step `k` comes from the registers after it, and these hold the last 32 input bits. -/
theorem shiftRegistersComputeTheConvolution : Obligations.ShiftRegistersComputeTheConvolution := by
  intro buf k hk
  obtain ⟨vs, hsplit⟩ := inputBits_eq_append buf hk
  obtain ⟨heven, hodd⟩ := convLoop_getElem?_step 0 0 ((List.range k).map (inputBit buf)) (inputBit buf k) vs
  rw [← hsplit, ← convEncode_toList, List.length_map, List.length_range, Vector.getElem?_toList,
    ← registerAfter, ← registerAfter_succ, parity_registerAfter_and] at heven hodd
  exact ⟨Vector.getElem_eq_iff.2 heven, Vector.getElem_eq_iff.2 hodd⟩

/-- The mask behind output `j`: POLY0 for the even outputs, POLY1 for the odd ones (R87). -/
def maskOfOutput (j : Nat) : Word32 := if j % 2 = 0 then poly0 else poly1

theorem maskOfOutput_cases (j : Nat) : maskOfOutput j = poly0 ∨ maskOfOutput j = poly1 := ite_eq_or_eq _ _ _

/-- R87, both halves of O46 in one. -/
theorem convEncode_getElem (buf : Vector Byte 11) {j : Nat} (hj : j < 162) :
    (convEncode buf)[j] = Spec.tapParity (maskOfOutput j) buf (j / 2) := by
  obtain ⟨heven, hodd⟩ := shiftRegistersComputeTheConvolution buf (j / 2) (by omega)
  rcases Nat.mod_two_eq_zero_or_one j with hmod | hmod
  · have hindex : j = 2 * (j / 2) := by omega
    rw [maskOfOutput, if_pos hmod]
    exact (getElem_congr_idx hindex).trans heven
  · have hindex : j = 2 * (j / 2) + 1 := by omega
    rw [maskOfOutput, if_neg (by omega)]
    exact (getElem_congr_idx hindex).trans hodd

/-! ### Linearity -/

theorem inputBit_of_lt (buf : Vector Byte 11) {t : Nat} (ht : t < 88) :
    inputBit buf t = buf[t / 8].getLsbD (7 - t % 8) := by
  rw [inputBit, Vector.getElem?_eq_getElem, Option.getD_some]

theorem inputBit_of_ge (buf : Vector Byte 11) {t : Nat} (ht : 88 ≤ t) : inputBit buf t = false := by
  have hbyte : 11 ≤ t / 8 := by omega
  simp [inputBit, hbyte]

theorem inputBit_xor (a b : Vector Byte 11) (t : Nat) :
    inputBit (Vector.ofFn fun i : Fin 11 => a[i] ^^^ b[i]) t = (inputBit a t ^^ inputBit b t) := by
  rcases Nat.lt_or_ge t 88 with ht | ht
  · simp [inputBit_of_lt _ ht]
  · simp [inputBit_of_ge _ ht]

/-- R90: a tap parity is a sum modulo 2 over the input bits. -/
theorem tapParity_xor (mask : Word32) (a b : Vector Byte 11) (k : Nat) :
    Spec.tapParity mask (Vector.ofFn fun i : Fin 11 => a[i] ^^^ b[i]) k =
      (Spec.tapParity mask a k ^^ Spec.tapParity mask b k) := by
  simp only [Spec.tapParity, inputBit_xor, Bool.and_xor_distrib_left]
  exact odd_countP_xor _ _ _

/-- While only zeros came before, the newest bit alone counts, if bit 0 is a tap. -/
theorem tapParity_of_zeros_before (mask : Word32) {buf : Vector Byte 11} {k : Nat}
    (hzeros : ∀ t < k, inputBit buf t = false) :
    Spec.tapParity mask buf k = (mask.getLsbD 0 && inputBit buf k) := by
  have hearlier : (List.range 31).countP
      ((fun i => decide (i ≤ k) && mask.getLsbD i && inputBit buf (k - i)) ∘ Nat.succ) = 0 := by
    rw [List.countP_eq_zero]
    intro i _ htap
    simp only [Function.comp_apply, Bool.and_eq_true, decide_eq_true_eq] at htap
    obtain ⟨⟨hle, -⟩, hone⟩ := htap
    rw [hzeros _ (by omega)] at hone
    cases hone
  rw [Spec.tapParity, List.range_succ_eq_map, List.countP_cons, List.countP_map, hearlier, odd_add_ite]
  simp

/-- Once 32 ones have entered, the register is full and the parity is that of the mask's own taps. -/
theorem tapParity_of_ones (mask : Word32) {buf : Vector Byte 11} {k : Nat} (hk : 31 ≤ k)
    (hones : ∀ t ≤ k, inputBit buf t = true) : Spec.tapParity mask buf k = parity mask := by
  have htap : ∀ i ∈ List.range 32, (decide (i ≤ k) && mask.getLsbD i && inputBit buf (k - i)) = mask.getLsbD i := by
    intro i hi
    have hle : i ≤ k := by rw [List.mem_range] at hi; omega
    simp [hle, hones (k - i) (Nat.sub_le k i)]
  rw [parity, popcount, Spec.tapParity, List.countP_congr fun i hi => by rw [htap i hi]]

theorem maskOfOutput_getLsbD_zero (j : Nat) : (maskOfOutput j).getLsbD 0 = true := by
  obtain h | h := maskOfOutput_cases j <;> rw [h] <;> decide

/-- R88: each mask has 15 taps, an odd number. -/
theorem parity_maskOfOutput (j : Nat) : parity (maskOfOutput j) = true := by
  obtain h | h := maskOfOutput_cases j <;> rw [h] <;> decide +kernel

theorem inputBit_zeros (t : Nat) : inputBit (Vector.replicate 11 0) t = false := by
  rcases Nat.lt_or_ge t 88 with ht | ht
  · simp [inputBit_of_lt _ ht]
  · exact inputBit_of_ge _ ht

theorem inputBit_ones {t : Nat} (ht : t < 88) : inputBit (Vector.replicate 11 0xFF) t = true := by
  have hfull : (0xFF : Byte) = BitVec.allOnes 8 := rfl
  have hbit : 7 - t % 8 < 8 := by omega
  rw [inputBit_of_lt _ ht, Vector.getElem_replicate, hfull, BitVec.getLsbD_allOnes, decide_eq_true hbit]

/-- R90's buffer with a single 1 at step 80. -/
def singleOneBuffer : Vector Byte 11 := #v[0, 0, 0, 0, 0, 0, 0, 0, 0, 0, 0x80]

theorem inputBit_singleOneBuffer : ∀ t < 81, inputBit singleOneBuffer t = decide (t = 80) := by decide +kernel

/-- Settles O47: each clause is a statement on tap parities. -/
theorem encoderIsLinear : Obligations.EncoderIsLinear := by
  refine ⟨fun a b => ?xor, ?zeros, fun j hj hfull => ?ones, fun j hj => ?single⟩
  case xor =>
    apply Vector.ext
    intro j hj
    simp only [Vector.getElem_ofFn, Fin.getElem_fin, convEncode_getElem _ hj]
    exact tapParity_xor _ a b _
  case zeros =>
    apply Vector.ext
    intro j hj
    rw [convEncode_getElem _ hj, tapParity_of_zeros_before _ fun t _ => inputBit_zeros t, inputBit_zeros, Bool.and_false,
      Vector.getElem_replicate]
  case ones =>
    rw [convEncode_getElem _ hj, tapParity_of_ones _ (by omega) fun t ht => inputBit_ones (by omega),
      parity_maskOfOutput]
  case single =>
    change (convEncode singleOneBuffer)[j] = _
    have hzeros : ∀ t < j / 2, inputBit singleOneBuffer t = false := fun t ht =>
      (inputBit_singleOneBuffer t (by omega)).trans (decide_eq_false (by omega))
    rw [convEncode_getElem _ hj, tapParity_of_zeros_before _ hzeros, maskOfOutput_getLsbD_zero, Bool.true_and,
      inputBit_singleOneBuffer _ (by omega)]
    exact decide_eq_decide.2 (by omega)

/-! ### The input bits consumed -/

/-- R89's other half: the encoder reads nothing but the first 81 input bits. -/
theorem convEncode_congr {a b : Vector Byte 11} (h : ∀ t < 81, inputBit a t = inputBit b t) :
    convEncode a = convEncode b := by
  have hbits : inputBits a = inputBits b := List.map_inj_left.2 fun t ht => h t (List.mem_range.1 ht)
  rw [← Vector.toList_inj, convEncode_toList, convEncode_toList, hbits]

/-- Settles O48: the encoder is a one-to-one function of the first 81 bits, and R75's layout ends at bit 50. -/
theorem exactlyEightyOneBitsConsumed : Obligations.ExactlyEightyOneBitsConsumed := by
  refine ⟨fun a b => ⟨inputBit_eq_of_convEncode_eq, convEncode_congr⟩, fun p t hfrom hto => ?_⟩
  rw [serializedPayloadLayout p t (by omega), if_neg (by omega), if_neg (by omega)]

end Sys2Proof.Machine

/-! The interleaver (45_interleaver.md): the reversal of eight bits, and the tables of the positions it gives. The table
SRC is compared with the printed one once; what it does to DEST and to the bits follows from the reversal being its own
inverse. -/

namespace Sys2Proof.Machine

/-! ### The reversal -/

/-- R91's sum is the number whose bits are those of `j` from bit 7 down. -/
theorem rev8_eq_ofBits (j : Nat) : rev8 j = Nat.ofBits fun i : Fin 8 => j.testBit (7 - i) := by
  calc rev8 j
    _ = 2 * (2 * (2 * (2 * (2 * (2 * (2 * (j % 2) + j / 2 % 2) + j / 4 % 2) + j / 8 % 2) + j / 16 % 2) + j / 32 % 2) +
          j / 64 % 2) + j / 128 % 2 := by
      unfold rev8
      ring
    _ = Nat.ofBits fun i : Fin 8 => j.testBit (7 - i) := by
      simp [Nat.ofBits, Fin.foldr_succ, Nat.toNat_testBit]

theorem rev8_lt (j : Nat) : rev8 j < 256 := by
  rw [rev8_eq_ofBits]
  exact Nat.ofBits_lt_two_pow _

theorem testBit_rev8 (j : Nat) {i : Nat} (hi : i < 8) : (rev8 j).testBit (7 - i) = j.testBit i := by
  rw [rev8_eq_ofBits, Nat.testBit_ofBits_lt _ _ (by omega), Nat.sub_sub_self (by omega)]

/-- Both sides have eight bits, and bit `i` is bit `7 - i` of the reversal. -/
theorem rev8_rev8 {j : Nat} (hj : j < 256) : rev8 (rev8 j) = j := by
  apply Nat.eq_of_testBit_eq
  intro i
  by_cases hi : i < 8
  · calc (rev8 (rev8 j)).testBit i
      _ = (rev8 (rev8 j)).testBit (7 - (7 - i)) := by rw [Nat.sub_sub_self (by omega)]
      _ = (rev8 j).testBit (7 - i) := testBit_rev8 _ (by omega)
      _ = j.testBit i := testBit_rev8 j hi
  · have hhigh : 2 ^ 8 ≤ 2 ^ i := Nat.pow_le_pow_right (by decide) (by omega)
    rw [Nat.testBit_eq_false_of_lt ((rev8_lt _).trans_le hhigh), Nat.testBit_eq_false_of_lt (hj.trans_le hhigh)]

/-- Settles O49: R91 from the formula of `rev8`, bit by bit. -/
theorem revEightReversesBits : Obligations.RevEightReversesBits :=
  fun j hj => ⟨rev8_lt j, rev8_rev8 hj, fun _ hi => testBit_rev8 j hi⟩

/-! ### The two tables -/

/-- How many positions the pass of R92 writes before position `i`. -/
def writtenBefore (i : Nat) : Nat := (List.range (rev8 i)).countP (fun j => rev8 j < 162)

/-- R95: the printed table counts the positions written before. -/
theorem srcTable_eq_map : srcTable = (List.range 162).map writtenBefore := by decide +kernel

theorem srcTable_getD {i : Nat} (hi : i < 162) : srcTable.getD i 0 = writtenBefore i := by
  simp [srcTable_eq_map, hi]

theorem destinations_append (js ks : List Nat) : destinations (js ++ ks) = destinations js ++ destinations ks := by
  simp [destinations]

theorem length_destinations (js : List Nat) : (destinations js).length = js.countP (fun j => rev8 j < 162) := by
  simp [destinations, List.countP_eq_length_filter, List.filter_map, Function.comp_def]

/-- An index that reaches a position writes it next after those of the indices before it. -/
theorem destinations_getElem?_of_getElem? {js : List Nat} {k j : Nat} (hk : js[k]? = some j) (hj : rev8 j < 162) :
    (destinations js)[(destinations (js.take k)).length]? = some (rev8 j) := by
  have hsplit : js = js.take k ++ j :: js.drop (k + 1) := by
    obtain ⟨hlt, rfl⟩ := List.getElem?_eq_some_iff.1 hk
    rw [← List.drop_eq_getElem_cons hlt, List.take_append_drop]
  calc (destinations js)[(destinations (js.take k)).length]?
    _ = (destinations (js.take k ++ j :: js.drop (k + 1)))[(destinations (js.take k)).length]? := by rw [← hsplit]
    _ = some (rev8 j) := by simp [destinations_append, destinations_cons_lt _ hj]

/-- The pass comes to position `i` at the index `rev8 i`. -/
theorem destTable_getElem?_writtenBefore {i : Nat} (hi : i < 162) : destTable[writtenBefore i]? = some i := by
  have hback : rev8 (rev8 i) = i := rev8_rev8 (by omega)
  have hne : rev8 i ≠ 255 := fun h => by
    have hi255 : i = 255 := by rw [← hback, h]; rfl
    omega
  have hindex : rev8 i < 255 := Nat.lt_of_le_of_ne (Nat.le_of_lt_succ (rev8_lt i)) hne
  have hposition := destinations_getElem?_of_getElem? (List.getElem?_range hindex) (hback.symm ▸ hi)
  rwa [List.take_range, Nat.min_eq_left hindex.le, length_destinations, hback, destinations_range] at hposition

theorem srcTable_getD_lt {i : Nat} (hi : i < 162) : srcTable.getD i 0 < 162 := by
  rw [srcTable_getD hi, ← destTable_length]
  exact (List.getElem?_eq_some_iff.1 (destTable_getElem?_writtenBefore hi)).1

theorem destTable_getD_srcTable_getD {i : Nat} (hi : i < 162) : destTable.getD (srcTable.getD i 0) 0 = i := by
  rw [srcTable_getD hi, List.getD_eq_getElem?_getD, destTable_getElem?_writtenBefore hi, Option.getD_some]

theorem destTable_getD_lt {p : Nat} (hp : p < 162) : destTable.getD p 0 < 162 := by
  have hmem : destTable.getD p 0 ∈ destinations (List.range 255) := by
    rw [destinations_range, List.getD_eq_getElem _ _ (destTable_length ▸ hp)]
    exact List.getElem_mem _
  exact of_decide_eq_true (List.mem_filter.1 hmem).2

theorem destTable_getD_inj {p q : Nat} (hp : p < 162) (hq : q < 162) (h : destTable.getD p 0 = destTable.getD q 0) :
    p = q := by
  rw [List.getD_eq_getElem _ _ (destTable_length ▸ hp), List.getD_eq_getElem _ _ (destTable_length ▸ hq)] at h
  exact (List.Nodup.getElem_inj_iff destTable_nodup).1 h

/-- DEST lists no position twice, so what SRC undoes on one side it undoes on both. -/
theorem srcTable_getD_destTable_getD {p : Nat} (hp : p < 162) : srcTable.getD (destTable.getD p 0) 0 = p :=
  have hdest := destTable_getD_lt hp
  destTable_getD_inj (srcTable_getD_lt hdest) hp (destTable_getD_srcTable_getD hdest)

/-! ### The bits -/

/-- R95: position `i` holds input bit SRC[i]. -/
theorem interleave_getElem (s : Vector Bool 162) {i : Nat} (hi : i < 162) :
    (interleave s)[i] = s[srcTable.getD i 0]'(srcTable_getD_lt hi) := by
  have hdest := interleave_getElem?_destTable s (srcTable_getD_lt hi)
  rw [destTable_getD_srcTable_getD hi, Vector.getElem?_eq_getElem hi] at hdest
  exact Option.some.inj hdest

/-- Settles O50: DEST is the pass's list of positions, and SRC its inverse. -/
theorem interleaverFollowsItsTables : Obligations.InterleaverFollowsItsTables := by
  refine ⟨fun s p hp => ⟨interleave_getElem?_destTable s hp, ?_, srcTable_getD_lt hp⟩, destinations_range.symm,
    fun p hp => ⟨srcTable_getD hp, srcTable_getD_destTable_getD hp⟩⟩
  have hlen : srcTable.getD p 0 < s.toList.length := by simpa using srcTable_getD_lt hp
  rw [interleave_getElem s hp, ← Vector.getElem_toList hlen]
  exact (List.getD_eq_getElem _ _ hlen).symm

/-- R93: the permutation of the positions that the two tables describe. -/
def sourcePerm : Equiv.Perm (Fin 162) where
  toFun i := ⟨srcTable.getD i 0, srcTable_getD_lt i.isLt⟩
  invFun p := ⟨destTable.getD p 0, destTable_getD_lt p.isLt⟩
  left_inv i := Fin.ext (destTable_getD_srcTable_getD i.isLt)
  right_inv p := Fin.ext (srcTable_getD_destTable_getD p.isLt)

theorem toList_interleave (s : Vector Bool 162) :
    (interleave s).toList = List.ofFn fun i : Fin 162 => s[(sourcePerm i).val] := by
  rw [← Vector.toList_ofFn, Vector.toList_inj]
  apply Vector.ext
  intro i hi
  rw [interleave_getElem s hi, Vector.getElem_ofFn]
  rfl

/-- Settles O51: the output reads the input through a permutation of the positions. -/
theorem interleaverPermutes : Obligations.InterleaverPermutes := by
  intro s
  have hinput : s.toList = List.ofFn fun i : Fin 162 => s[i.val] := by
    rw [← Vector.toList_ofFn, Vector.ofFn_getElem]
  rw [toList_interleave, hinput]
  exact Equiv.Perm.ofFn_comp_perm sourcePerm fun i : Fin 162 => s[i.val]

end Sys2Proof.Machine

/-! The sync merger (46_sync_merger.md): the two bits of a symbol read back. -/

namespace Sys2Proof.Machine

/-- R97, bit 1: the parity bit. -/
theorem symbol_toNat_div_two (y b : Bool) : (symbol y b).toNat / 2 = b.toNat := by
  rw [symbol_toNat, Nat.add_mul_div_left _ _ two_pos, Nat.div_eq_of_lt y.toNat_lt, Nat.zero_add]

theorem symbol_false_toNat (y : Bool) : (symbol y false).toNat = y.toNat := symbol_toNat y false

theorem symbol_true_toNat (y : Bool) : (symbol y true).toNat = (symbol y false).toNat + 2 := by
  rw [symbol_false_toNat, symbol_toNat, Bool.toNat_true, Nat.mul_one]

/-- Settles O52: R97 at one position gives each part, the two bits first and then R99's two consequences. -/
theorem symbolsCarrySyncAndParity : Obligations.SymbolsCarrySyncAndParity := by
  intro sync d e i h
  simp only [syncMerge_getElem]
  refine ⟨symbol_toNat_mod_two _ _, symbol_toNat_div_two _ _, fun hd he => ?_, ?_⟩
  · rw [hd, he, symbol_true_toNat]
  · rw [Vector.getElem_replicate, symbol_false_toNat]

end Sys2Proof.Machine

/-! The three commands (47_encode_command.md R104 to R106): the fields each packs and the first error of each, in the
spec's own closed forms, and from these what every state that is not busy goes to. -/

namespace Sys2Proof.Machine

/-! ### The stages in closed form -/

/-- R65, R66: `packN` answers where the positional check passes. -/
theorem packN_eq (ch : Vector Byte 6) :
    packN ch = if Spec.Packs ch then .ok (BitVec.ofNat 28 (Spec.nOf ch)) else .error .invalidCharacter := by
  simp only [packN, positionsValid_iff, packNValue_eq_nOf]

theorem locatorPackable_iff (loc : Vector Byte 4) : locatorPackable loc = true ↔ Spec.LocatorPacks loc := by
  simp [locatorPackable, isFieldLetter, isDigit, Spec.LocatorPacks, and_assoc]

/-- R72: PFX has a value where every character has a code, and else the error of `encodeChar`. -/
theorem pfxValue_eq (pfx : Vector Byte 3) :
    pfxValue pfx = if Spec.PfxPacks pfx then .ok ((code pfx[0] * 37 + code pfx[1]) * 37 + code pfx[2])
      else .error .invalidCharacter := by
  have hpacks : Spec.PfxPacks pfx ↔ ¬ code pfx[0] = sentinel ∧ ¬ code pfx[1] = sentinel ∧ ¬ code pfx[2] = sentinel := by
    simp [Spec.PfxPacks, Fin.forall_fin_succ, sentinel]
  simp only [pfxValue, encodeChar_eq_code, hpacks]
  by_cases h0 : code pfx[0] = sentinel
  · simp [h0]
  by_cases h1 : code pfx[1] = sentinel
  · simp [h0, h1]
  by_cases h2 : code pfx[2] = sentinel <;> simp [h0, h1, h2]

theorem gOf_eq (pfx : Vector Byte 3) :
    (((code pfx[0] * 37 + code pfx[1]) * 37 + code pfx[2] : Nat) : Int) = Spec.gOf pfx := by
  push_cast [Spec.gOf]
  rfl

/-- R72: the split between the two offsets, over the integers. -/
theorem pfxField_eq (g : Nat) (power : Byte) :
    pfxField g power = if 32767 < (g : Int) then ((g : Int) - 32768) * 128 + power.toNat + 66
      else (g : Int) * 128 + power.toNat + 65 := by
  have hsplit : pfxSplit < g ↔ 32767 < (g : Int) := by unfold pfxSplit; omega
  simp only [pfxField, hsplit]

theorem reorderLoc6_eq (loc6 : Vector Byte 6) : reorderLoc6 loc6 = Spec.loc6Chars loc6 := by
  ext i hi
  interval_cases i <;> rfl

theorem toList_eq_three (v : Vector Byte 3) : v.toList = [v[0], v[1], v[2]] := by
  apply List.ext_getElem
  · simp
  · intro i hi _
    rw [Vector.length_toList] at hi
    interval_cases i <;> rfl

/-- R77, R78: the composite string, and the one error that stands in its way. -/
theorem composite_snapshot_eq (s : State) :
    composite (snapshot s) = if s.flags.getLsbD 0 = true ∧ 81 < s.sfx.toNat then .error .invalidCallSign
      else .ok (Spec.compOf s) := by
  cases hu : s.flags.getLsbD 0 with
  | false =>
    rw [composite_of_pfx (o := snapshot s) hu, Spec.compOf, hu]
    simp [snapshot, rawCall, slash, toList_eq_three]
  | true =>
    rcases Nat.lt_or_ge 81 s.sfx.toNat with hs | hs
    · rw [composite_of_suffix_gt (o := snapshot s) hu hs, if_pos ⟨rfl, hs⟩]
    · rw [composite_of_suffix (o := snapshot s) hu hs, if_neg (by omega), Spec.compOf, hu]
      simp [snapshot, rawCall, slash]

/-- R79, R83: the hash by the length of its string. -/
theorem hash16_eq (comp : List Byte) :
    hash16 comp = if comp.length < 3 ∨ 10 < comp.length then .error .invalidCallSign
      else .ok (BitVec.ofNat 16 ((hash32 comp).c32.toNat % 65536)) := by
  split_ifs with h
  · exact hash16_of_unsupported_length h
  · exact hash16_of_length (by omega) (by omega)

theorem hashField_eq (comp : List Byte) (power : Byte) :
    hashField (BitVec.ofNat 16 ((hash32 comp).c32.toNat % 65536)) power = 128 * Spec.hOf comp - power.toNat - 1 + 64 := by
  rw [hashField, BitVec.toNat_ofNat, Nat.mod_mod, Spec.hOf]

/-! ### What each command packs -/

/-- ENC1's field `m` before truncation (R104). -/
def locatorField (s : State) : Except EncodeError Int :=
  if Spec.LocatorPacks (normLoc s.loc4) then .ok (Spec.locOf (normLoc s.loc4) * 128 + s.power.toNat + 64)
  else .error .invalidCharacter

/-- ENC2's field `m` before truncation, by SFX or by PFX (R105). -/
def affixField (s : State) : Except EncodeError Int :=
  if s.flags.getLsbD 0 then
    if 81 < s.sfx.toNat then .error .invalidCallSign
    else .ok ((27232 + (s.sfx.toNat : Int)) * 128 + s.power.toNat + 66)
  else if Spec.PfxPacks s.pfx then
    .ok (if 32767 < Spec.gOf s.pfx then (Spec.gOf s.pfx - 32768) * 128 + s.power.toNat + 66
      else Spec.gOf s.pfx * 128 + s.power.toNat + 65)
  else .error .invalidCharacter

/-- ENC3's field `m` before truncation (R106). -/
def compositeField (s : State) : Except EncodeError Int :=
  if s.flags.getLsbD 0 = true ∧ 81 < s.sfx.toNat then .error .invalidCallSign
  else if (Spec.compOf s).length < 3 ∨ 10 < (Spec.compOf s).length then .error .invalidCallSign
  else .ok (128 * Spec.hOf (Spec.compOf s) - s.power.toNat - 1 + 64)

/-- The six characters of the field `n` (R104, R105, R106): LOC6 reordered for ENC3, else the normalized call sign. -/
def callSignChars (k : MessageType) (s : State) : Vector Byte 6 :=
  match k with
  | .type1 | .type2 => normCall s.call s.callLen
  | .type3 => Spec.loc6Chars s.loc6

/-- The field `m` of a type before truncation, or the first error met behind the positional check of `n`. -/
def fieldOf (k : MessageType) (s : State) : Except EncodeError Int :=
  match k with
  | .type1 => locatorField s
  | .type2 => affixField s
  | .type3 => compositeField s

/-- Every packer looks at `n` first and at its field `m` then (R70 to R73). -/
def payloadFrom (ch : Vector Byte 6) (field : Except EncodeError Int) : Except EncodeError Payload :=
  if Spec.Packs ch then field.map fun m => ⟨BitVec.ofNat 28 (Spec.nOf ch), trunc22 m⟩ else .error .invalidCharacter

theorem snapshot_loc6 (s : State) : (snapshot s).loc6 = s.loc6 := rfl

theorem snapshot_pfx (s : State) : (snapshot s).pfx = s.pfx := rfl

theorem snapshot_useSuffix (s : State) : (snapshot s).useSuffix = s.flags.getLsbD 0 := rfl

theorem callsign6_normalize (s : State) : (normalize (snapshot s)).callsign6 = normCall s.call s.callLen := rfl

theorem locator4_normalize (s : State) : (normalize (snapshot s)).locator4 = normLoc s.loc4 := rfl

theorem packEnc1_eq (s : State) : packEnc1 (normalize (snapshot s)) (snapshot s) =
    payloadFrom (normCall s.call s.callLen) (locatorField s) := by
  unfold packEnc1 packType1 payloadFrom locatorField
  rw [callsign6_normalize, locator4_normalize, packN_eq]
  by_cases hn : Spec.Packs (normCall s.call s.callLen)
  · rw [if_pos hn, if_pos hn]
    dsimp only
    by_cases hloc : Spec.LocatorPacks (normLoc s.loc4)
    · rw [if_pos hloc, if_pos ((locatorPackable_iff _).2 hloc), (locatorValueIsOneToOne.1 _ hloc).1]; rfl
    · rw [if_neg hloc, if_neg (mt (locatorPackable_iff _).1 hloc)]; rfl
  · rw [if_neg hn, if_neg hn]

theorem packEnc2_eq (s : State) : packEnc2 (normalize (snapshot s)) (snapshot s) =
    payloadFrom (normCall s.call s.callLen) (affixField s) := by
  unfold packEnc2 packType2Suffix packType2Pfx payloadFrom affixField
  rw [callsign6_normalize, packN_eq, snapshot_useSuffix]
  by_cases hn : Spec.Packs (normCall s.call s.callLen)
  · rw [if_pos hn, if_pos hn]
    dsimp only
    cases s.flags.getLsbD 0 with
    | true =>
      rw [if_pos rfl, if_pos rfl]
      by_cases hs : 81 < s.sfx.toNat
      · rw [if_pos hs]; exact if_pos hs
      · rw [if_neg hs]; exact if_neg hs
    | false =>
      rw [if_neg Bool.false_ne_true, if_neg Bool.false_ne_true, snapshot_pfx, pfxValue_eq]
      by_cases hpfx : Spec.PfxPacks s.pfx
      · rw [if_pos hpfx, if_pos hpfx]
        dsimp only
        rw [pfxField_eq, gOf_eq]; rfl
      · rw [if_neg hpfx, if_neg hpfx]; rfl
  · rw [if_neg hn, if_neg hn, ite_self]

theorem packEnc3_eq (s : State) : packEnc3 (normalize (snapshot s)) (snapshot s) =
    payloadFrom (Spec.loc6Chars s.loc6) (compositeField s) := by
  unfold packEnc3 packType3 payloadFrom compositeField
  rw [snapshot_loc6, reorderLoc6_eq, packN_eq, composite_snapshot_eq]
  by_cases hn : Spec.Packs (Spec.loc6Chars s.loc6)
  · rw [if_pos hn, if_pos hn]
    dsimp only
    by_cases hs : s.flags.getLsbD 0 = true ∧ 81 < s.sfx.toNat
    · rw [if_pos hs, if_pos hs]; rfl
    · rw [if_neg hs, if_neg hs]
      dsimp only
      rw [hash16_eq]
      by_cases hlen : (Spec.compOf s).length < 3 ∨ 10 < (Spec.compOf s).length
      · rw [if_pos hlen, if_pos hlen]; rfl
      · rw [if_neg hlen, if_neg hlen]
        dsimp only
        rw [hashField_eq]; rfl
  · rw [if_neg hn, if_neg hn]

theorem packerOf_eq (k : MessageType) (s : State) : packerOf k (normalize (snapshot s)) (snapshot s) =
    payloadFrom (callSignChars k s) (fieldOf k s) := by
  cases k with
  | type1 => exact packEnc1_eq s
  | type2 => exact packEnc2_eq s
  | type3 => exact packEnc3_eq s

/-! ### The order of the stages -/

/-- The result of a command: capacity, the positional check, then what the type's field `m` asks for (R117). -/
theorem encodeSymbols_eq (k : MessageType) (s : State) :
    encodeSymbols s.platform.sync (packerOf k) (snapshot s) =
      if 10 < s.callLen.toNat then .error .invalidCallSign
      else if Spec.Packs (callSignChars k s) then
        (fieldOf k s).map (Spec.stream s (Spec.nOf (callSignChars k s)))
      else .error .invalidCharacter := by
  have hcap : callMax < (snapshot s).callLen.toNat ↔ 10 < s.callLen.toNat := Iff.rfl
  rw [encodeSymbols, packerOf_eq, payloadFrom]
  by_cases hlen : 10 < s.callLen.toNat
  · rw [if_pos hlen, if_pos (hcap.2 hlen)]
  · rw [if_neg hlen, if_neg (mt hcap.1 hlen)]
    by_cases hpacks : Spec.Packs (callSignChars k s)
    · rw [if_pos hpacks, if_pos hpacks]
      cases fieldOf k s <;> rfl
    · rw [if_neg hpacks, if_neg hpacks]

theorem endEncode_ok (s : State) (v : SymbolStream) : s.endEncode (.ok v) = { s with sym := v, status := 0x01 } := rfl

theorem endEncode_error (s : State) (e : EncodeError) :
    s.endEncode (.error e) = { s with status := errorStatus e } := rfl

section
variable {s : State} (hb : statusBusy s = false)
include hb

theorem exec_commandOf_of_not_busy (k : MessageType) : exec (commandOf k) s =
    .next (s.endEncode (encodeSymbols s.platform.sync (packerOf k) (snapshot s))) := by
  rw [exec_commandOf, unlessBusy_of_not_busy hb, runEncode_eq_endEncode]

theorem exec_commandOf_of_capacity (k : MessageType) (hlen : 10 < s.callLen.toNat) :
    exec (commandOf k) s = .next { s with status := 0x23 } := by
  rw [exec_commandOf_of_not_busy hb, encodeSymbols_eq, if_pos hlen]; rfl

theorem exec_commandOf_of_not_packs (k : MessageType) (hlen : s.callLen.toNat ≤ 10)
    (hpacks : ¬ Spec.Packs (callSignChars k s)) : exec (commandOf k) s = .next { s with status := 0x13 } := by
  rw [exec_commandOf_of_not_busy hb, encodeSymbols_eq, if_neg (Nat.not_lt.2 hlen), if_neg hpacks]; rfl

theorem exec_commandOf_of_field_ok {k : MessageType} (hlen : s.callLen.toNat ≤ 10)
    (hpacks : Spec.Packs (callSignChars k s)) {m : Int} (hm : fieldOf k s = .ok m) : exec (commandOf k) s =
      .next { s with sym := Spec.stream s (Spec.nOf (callSignChars k s)) m, status := 0x01 } := by
  rw [exec_commandOf_of_not_busy hb, encodeSymbols_eq, if_neg (Nat.not_lt.2 hlen), if_pos hpacks, hm,
    Except.map, endEncode_ok]

theorem exec_commandOf_of_field_error {k : MessageType} (hlen : s.callLen.toNat ≤ 10)
    (hpacks : Spec.Packs (callSignChars k s)) {e : EncodeError} (he : fieldOf k s = .error e) :
    exec (commandOf k) s = .next { s with status := errorStatus e } := by
  rw [exec_commandOf_of_not_busy hb, encodeSymbols_eq, if_neg (Nat.not_lt.2 hlen), if_pos hpacks, he,
    Except.map, endEncode_error]

end

/-! ### The three commands -/

/-- Settles O22: behind the positional check ENC1 asks for the locator alone. -/
theorem enc1EncodesTypeOne : Obligations.Enc1EncodesTypeOne := by
  intro s hb
  refine ⟨fun hlen hpacks hloc => ?_, exec_commandOf_of_capacity hb .type1, exec_commandOf_of_not_packs hb .type1,
    fun hlen hpacks hloc => ?_⟩
  · have hm : locatorField s = .ok _ := if_pos hloc
    exact exec_commandOf_of_field_ok (k := .type1) hb hlen hpacks hm
  · have he : locatorField s = .error .invalidCharacter := if_neg hloc
    exact exec_commandOf_of_field_error (k := .type1) hb hlen hpacks he

/-- Settles O23: behind the positional check ENC2 asks for the selected one of SFX and PFX. -/
theorem enc2EncodesTypeTwo : Obligations.Enc2EncodesTypeTwo := by
  intro s hb
  refine ⟨fun hlen hpacks hu hs => ?_, fun hlen hpacks hu hpfx => ?_, exec_commandOf_of_capacity hb .type2,
    exec_commandOf_of_not_packs hb .type2, fun hlen hpacks hu hs => ?_, fun hlen hpacks hu hpfx => ?_⟩
  · have hm : affixField s = .ok _ := (if_pos hu).trans (if_neg (Nat.not_lt.2 hs))
    exact exec_commandOf_of_field_ok (k := .type2) hb hlen hpacks hm
  · have hm : affixField s = .ok _ := (if_neg (Bool.eq_false_iff.1 hu)).trans (if_pos hpfx)
    exact exec_commandOf_of_field_ok (k := .type2) hb hlen hpacks hm
  · have he : affixField s = .error .invalidCallSign := (if_pos hu).trans (if_pos hs)
    exact exec_commandOf_of_field_error (k := .type2) hb hlen hpacks he
  · have he : affixField s = .error .invalidCharacter :=
      (if_neg (Bool.eq_false_iff.1 hu)).trans (if_neg hpfx)
    exact exec_commandOf_of_field_error (k := .type2) hb hlen hpacks he

/-- Settles O24: behind the positional check ENC3 asks for the suffix code, where it counts, and then for the length of the
composite string. -/
theorem enc3EncodesTypeThree : Obligations.Enc3EncodesTypeThree := by
  intro s hb
  have hcode (h : s.flags.getLsbD 0 = true → s.sfx.toNat ≤ 81) : ¬ (s.flags.getLsbD 0 = true ∧ 81 < s.sfx.toNat) :=
    fun ⟨hu, hs⟩ => Nat.not_lt.2 (h hu) hs
  refine ⟨fun hlen hpacks hs hmin hmax => ?_, exec_commandOf_of_capacity hb .type3,
    exec_commandOf_of_not_packs hb .type3, fun hlen hpacks hu hs => ?_, fun hlen hpacks hs hcomp => ?_⟩
  · have hwindow : ¬ ((Spec.compOf s).length < 3 ∨ 10 < (Spec.compOf s).length) := by omega
    have hm : compositeField s = .ok _ := (if_neg (hcode hs)).trans (if_neg hwindow)
    exact exec_commandOf_of_field_ok (k := .type3) hb hlen hpacks hm
  · have he : compositeField s = .error .invalidCallSign := if_pos ⟨hu, hs⟩
    exact exec_commandOf_of_field_error (k := .type3) hb hlen hpacks he
  · have he : compositeField s = .error .invalidCallSign := (if_neg (hcode hs)).trans (if_pos hcomp)
    exact exec_commandOf_of_field_error (k := .type3) hb hlen hpacks he

end Sys2Proof.Machine

/-! The errors of an ENCODE (60_exceptions.md): one report, precise in STATUS and touching nothing else (R118), the total
order of R117, and the error that is never raised (R114). -/

namespace Sys2Proof.Machine

open Sys2Proof.Safety

/-! ### The result of a byte written to CMD, as STATUS shows it -/

/-- STATUS after an ENCODE with the result `r` (R101). -/
def statusOf {α : Type} (r : Except EncodeError α) : Byte :=
  match r with
  | .ok _ => doneStatus
  | .error e => errorStatus e

theorem statusOf_ok {α : Type} (v : α) : statusOf (.ok v : Except EncodeError α) = doneStatus := rfl

theorem endEncode_status (s : State) (r : Except EncodeError SymbolStream) : (s.endEncode r).status = statusOf r := by
  cases r <;> rfl

theorem exec_wr_cmd_of_not_busy {s : State} (hb : statusBusy s = false) (w : Byte) :
    exec (.wr 0x1B w) s = .next (s.endEncode (commandResult s.platform.sync w (snapshot s))) := by
  rw [exec_wr_cmd, unlessBusy_of_not_busy hb, encodeCommand_eq_endEncode]

theorem messageTypeOf_eq_none {w : Byte} (h1 : w ≠ 0x01) (h2 : w ≠ 0x02) (h3 : w ≠ 0x03) : messageTypeOf w = none := by
  rw [messageTypeOf_eq, if_neg h1, if_neg h2, if_neg h3]

theorem commandResult_of_reserved {w : Byte} (hw : messageTypeOf w = none) (sync : SyncVector) (o : Snapshot) :
    commandResult sync w o = .error .invalidCommand := by
  rw [commandResult, hw]

theorem commandResult_of_command {w : Byte} {k : MessageType} (hw : messageTypeOf w = some k) (sync : SyncVector)
    (o : Snapshot) : commandResult sync w o = encodeSymbols sync (packerOf k) o := by
  rw [commandResult, hw]

/-- What a byte written to CMD can raise (R112, R113, R115). -/
theorem commandResult_error {sync : SyncVector} {w : Byte} {o : Snapshot} {e : EncodeError}
    (h : commandResult sync w o = .error e) : StageError e ∨ e = .invalidCommand := by
  cases hw : messageTypeOf w with
  | none =>
    rw [commandResult_of_reserved hw] at h
    exact .inr (Except.error.inj h).symm
  | some k =>
    rw [commandResult_of_command hw] at h
    exact .inl (encodeSymbols_error h)

/-- Settles O28: a byte without a message type ends the frame before any stage. -/
theorem reservedWordReportsInvalidCommand : Obligations.ReservedWordReportsInvalidCommand := by
  intro s w hb h1 h2 h3
  rw [exec_wr_cmd_of_not_busy hb, commandResult_of_reserved (messageTypeOf_eq_none h1 h2 h3)]
  rfl

/-! ### The precise report -/

/-- The three errors that are raised, as STATUS reports them (R118). -/
theorem errorStatus_cases {e : EncodeError} (h : StageError e ∨ e = .invalidCommand) :
    errorStatus e = 0x13 ∨ errorStatus e = 0x23 ∨ errorStatus e = 0x43 := by
  rcases h with (rfl | rfl) | rfl
  exacts [.inl rfl, .inr (.inl rfl), .inr (.inr rfl)]

/-- DONE, ERR and BUSY after an error, whatever its code. -/
theorem errorStatus_flags (e : EncodeError) :
    (errorStatus e).getLsbD 0 = true ∧ (errorStatus e).getLsbD 1 = true ∧ (errorStatus e).getLsbD 2 = false := by
  cases e <;> decide

/-- Settles O26: the command's result is its error, and an error's end writes STATUS alone. -/
theorem errorReportIsPrecise : Obligations.ErrorReportIsPrecise := by
  intro s w e hb h
  have hresult : commandResult s.platform.sync w (snapshot s) = .error e := by
    rcases h with ⟨hw, rfl⟩ | ⟨k, hw, he⟩
    · exact commandResult_of_reserved hw ..
    · exact (commandResult_of_command hw ..).trans he
  obtain ⟨hdone, herr, hbusy⟩ := errorStatus_flags e
  refine ⟨s.withStatus (errorStatus e), ?_, rfl, hdone, herr, hbusy, errorStatus_cases (commandResult_error hresult)⟩
  rw [exec_wr_cmd_of_not_busy hb, hresult]
  rfl

/-! ### The total order of the errors -/

/-- R117 for a command: capacity, the positional check, then what its field `m` asks for. -/
theorem statusOf_encodeSymbols (k : MessageType) (s : State) :
    statusOf (encodeSymbols s.platform.sync (packerOf k) (snapshot s)) =
      if 10 < s.callLen.toNat then 0x23
      else if ¬ Spec.Packs (callSignChars k s) then 0x13
      else statusOf (fieldOf k s) := by
  rw [encodeSymbols_eq]
  by_cases hlen : 10 < s.callLen.toNat
  · rw [if_pos hlen, if_pos hlen]; rfl
  · rw [if_neg hlen, if_neg hlen]
    by_cases hpacks : Spec.Packs (callSignChars k s)
    · rw [if_pos hpacks, if_neg (not_not.2 hpacks)]
      cases fieldOf k s <;> rfl
    · rw [if_neg hpacks, if_pos hpacks]; rfl

theorem statusOf_locatorField (s : State) :
    statusOf (locatorField s) = if Spec.LocatorPacks (normLoc s.loc4) then 0x01 else 0x13 := by
  rw [locatorField, apply_ite statusOf]; rfl

theorem statusOf_affixField (s : State) : statusOf (affixField s) =
    if s.flags.getLsbD 0 then (if 81 < s.sfx.toNat then 0x23 else 0x01)
    else (if Spec.PfxPacks s.pfx then 0x01 else 0x13) := by
  simp only [affixField, apply_ite statusOf]; rfl

/-- Where CALL_LEN is within the capacity, R78's length is that of the string. -/
theorem compOf_length {s : State} (hlen : s.callLen.toNat ≤ 10)
    (hs : ¬ (s.flags.getLsbD 0 = true ∧ 81 < s.sfx.toNat)) : (Spec.compOf s).length = Spec.compLength (snapshot s) :=
  composite_length (o := snapshot s) hlen (by rw [composite_snapshot_eq, if_neg hs])

theorem statusOf_compositeField {s : State} (hlen : s.callLen.toNat ≤ 10) : statusOf (compositeField s) =
    if s.flags.getLsbD 0 = true ∧ 81 < s.sfx.toNat then 0x23
    else if Spec.compLength (snapshot s) < 3 ∨ 10 < Spec.compLength (snapshot s) then 0x23
    else 0x01 := by
  rw [compositeField, apply_ite statusOf, apply_ite statusOf]
  by_cases hs : s.flags.getLsbD 0 = true ∧ 81 < s.sfx.toNat
  · rw [if_pos hs, if_pos hs]; rfl
  · rw [if_neg hs, if_neg hs, compOf_length hlen hs]; rfl

/-! R117's chain for one command: its tests of the byte evaluate, which leaves the branch of that command. -/

theorem statusAfter_enc1 (s : State) : Spec.statusAfter 0x01 (snapshot s) =
    statusOf (encodeSymbols s.platform.sync (packerOf .type1) (snapshot s)) := by
  rw [statusOf_encodeSymbols, fieldOf, statusOf_locatorField]; rfl

theorem statusAfter_enc2 (s : State) : Spec.statusAfter 0x02 (snapshot s) =
    statusOf (encodeSymbols s.platform.sync (packerOf .type2) (snapshot s)) := by
  rw [statusOf_encodeSymbols, fieldOf, statusOf_affixField]; rfl

theorem statusAfter_enc3 (s : State) : Spec.statusAfter 0x03 (snapshot s) =
    statusOf (encodeSymbols s.platform.sync (packerOf .type3) (snapshot s)) := by
  rw [statusOf_encodeSymbols, fieldOf]
  by_cases hlen : 10 < s.callLen.toNat
  · rw [if_pos hlen]; exact if_pos hlen
  · rw [statusOf_compositeField (Nat.not_lt.1 hlen)]; rfl

/-- Settles O25: R117's chain is the order of the stages for each command, and a reserved word comes before all of them. -/
theorem firstErrorDecidesStatus : Obligations.FirstErrorDecidesStatus := by
  intro s w hb
  refine ⟨_, exec_wr_cmd_of_not_busy hb w, ?_⟩
  rw [endEncode_status]
  by_cases h1 : w = 0x01
  · subst h1; exact (statusAfter_enc1 s).symm
  by_cases h2 : w = 0x02
  · subst h2; exact (statusAfter_enc2 s).symm
  by_cases h3 : w = 0x03
  · subst h3; exact (statusAfter_enc3 s).symm
  rw [commandResult_of_reserved (messageTypeOf_eq_none h1 h2 h3), Spec.statusAfter, if_pos ⟨h1, h2, h3⟩]
  rfl

/-! ### InvalidLocator -/

/-- ERRCODE 3 belongs to InvalidLocator, which nothing raises (R114). -/
theorem statusErrCode_endEncode_ne_three {s : State} {r : Except EncodeError SymbolStream}
    (hr : ∀ e, r = .error e → StageError e ∨ e = .invalidCommand) : statusErrCode (s.endEncode r) ≠ 3 := by
  rw [statusErrCode, endEncode_status]
  cases r with
  | ok v => rw [statusOf_ok]; decide
  | error e => rcases hr e rfl with (rfl | rfl) | rfl <;> decide

/-- R60, R69: the locator in the place of an invalid one, and its value. -/
theorem normLoc_of_invalid {loc4 : Vector Byte 4} (h : ∃ i : Fin 4, locatorCharValid (upper loc4[i]) = false) :
    normLoc loc4 = fallbackLocator := by
  obtain ⟨i, hi⟩ := h
  refine normLoc_rejected (Bool.eq_false_iff.2 fun hacc => ?_)
  exact Bool.false_ne_true (hi.symm.trans ((locatorAccepted_iff loc4).1 hacc i))

theorem locatorPacks_fallbackLocator : Spec.LocatorPacks fallbackLocator := by decide

theorem locOf_fallbackLocator : Spec.locOf fallbackLocator = 32220 := by decide

/-- Settles O27: no stage raises InvalidLocator, and ENC1 packs the replaced locator as any other. -/
theorem invalidLocatorIsRepairedNotReported : Obligations.InvalidLocatorIsRepairedNotReported := by
  refine ⟨fun sync k o h => ?_, fun s t w hb h => ?_, fun s hb hlen hpacks hloc => ?_⟩
  · rcases encodeSymbols_error h with h | h <;> cases h
  · rw [exec_wr_cmd_of_not_busy hb] at h
    obtain rfl := Host.Outcome.next.inj h
    exact statusErrCode_endEncode_ne_three fun _ => commandResult_error
  · obtain ⟨hok, -⟩ := enc1EncodesTypeOne s hb
    rw [normLoc_of_invalid hloc, locOf_fallbackLocator] at hok
    exact hok hlen hpacks locatorPacks_fallbackLocator

end Sys2Proof.Machine

/-! The frames of a command and of a write (47_encode_command.md R101, R107, R127), read through the register window. -/

namespace Sys2Proof.Machine

open Sys2Proof.Safety

/-! ### The register map, backwards -/

/-- The one offset of a location (R31); a reserved location has many, and none is named. -/
def Location.offset : Location → Nat
  | .call i => i
  | .callLen => 0x0A
  | .power => 0x0B
  | .loc4 i => 0x0C + i
  | .loc6 i => 0x10 + i
  | .pfx i => 0x16 + i
  | .sfx => 0x19
  | .flags => 0x1A
  | .cmd => 0x1B
  | .status => 0x1C
  | .sym i => 0x20 + i
  | .reserved => 0

theorem toNat_eq_offset {a : Byte} {l : Location} (h : locationAt a = l) (hl : l ≠ .reserved) : a.toNat = l.offset := by
  have hmap : ∀ a : Byte, locationAt a = .reserved ∨ a.toNat = (locationAt a).offset := by decide +kernel
  subst h
  exact (hmap a).resolve_left hl

/-- Two offsets of one location that is not reserved are the same. -/
theorem locationAt_inj {a b : Byte} (h : locationAt b = locationAt a) (ha : locationAt a ≠ .reserved) : b = a :=
  BitVec.eq_of_toNat_eq ((toNat_eq_offset h ha).trans (toNat_eq_offset rfl ha).symm)

/-! ### The frame of a command -/

/-- Outside STATUS and SYM a read sees the operand registers only (R108). -/
theorem readLocation_of_snapshot_eq {s t : State} (h : snapshot t = snapshot s) {l : Location} (hstatus : l ≠ .status)
    (hsym : ∀ i, l ≠ .sym i) : readLocation t l = readLocation s l := by
  cases l with
  | call i => exact congrArg (fun o : Snapshot => o.call[i]) h
  | callLen => exact congrArg Snapshot.callLen h
  | power => exact congrArg Snapshot.power h
  | loc4 i => exact congrArg (fun o : Snapshot => o.loc4[i]) h
  | loc6 i => exact congrArg (fun o : Snapshot => o.loc6[i]) h
  | pfx i => exact congrArg (fun o : Snapshot => o.pfx[i]) h
  | sfx => exact congrArg Snapshot.sfx h
  | flags => exact congrArg (fun o : Snapshot => o.flags &&& 0x01) h
  | status => exact absurd rfl hstatus
  | sym i => exact absurd rfl (hsym i)
  | cmd | reserved => rfl

theorem windowRead_of_snapshot_eq {s t : State} (h : snapshot t = snapshot s) {a : Byte} (hstatus : a ≠ 0x1C)
    (hsym : a.toNat < 0x20 ∨ 0xC1 < a.toNat) : windowRead t a = windowRead s a := by
  refine readLocation_of_snapshot_eq h (fun hl => ?_) fun i hl => ?_
  · exact hstatus (BitVec.eq_of_toNat_eq (toNat_eq_offset hl (by simp)))
  · have ha : a.toNat = 0x20 + i := toNat_eq_offset hl (by simp)
    omega

theorem samePort_endEncode (s : State) (r : Except EncodeError SymbolStream) : samePort s (s.endEncode r) := by
  cases r <;> exact ⟨rfl, rfl, rfl, rfl⟩

/-- An end that reports an error leaves SYM as it was (R118). -/
theorem endEncode_sym_of_err {s : State} {r : Except EncodeError SymbolStream} (h : statusErr (s.endEncode r) = true) :
    (s.endEncode r).sym = s.sym := by
  cases r with
  | ok v => exact absurd h (by rw [statusErr, endEncode_status, statusOf_ok]; decide)
  | error e => rfl

/-- Settles O15: a command that is not turned away is the end of an ENCODE, which writes SYM and STATUS at most. -/
theorem commandsChangeOnlySymAndStatus : Obligations.CommandsChangeOnlySymAndStatus := by
  intro i s t hi h
  obtain ⟨k, rfl⟩ := (isCommand_iff i).1 hi
  obtain rfl := Host.Outcome.next.inj ((exec_commandOf k s).symm.trans h)
  rw [runEncode_eq_endEncode]
  rcases unlessBusy_cases s (s.endEncode (encodeSymbols s.platform.sync (packerOf k) (snapshot s))) with
    ⟨_, ht⟩ | ⟨_, ht⟩ <;> rw [ht]
  · exact ⟨rfl, ⟨rfl, rfl, rfl, rfl⟩, fun _ _ _ => rfl, fun _ => rfl⟩
  · exact ⟨snapshot_endEncode .., samePort_endEncode .., fun _ => windowRead_of_snapshot_eq (snapshot_endEncode ..),
      endEncode_sym_of_err⟩

/-! ### Writes -/

/-- Settles O19: WR and the three commands all run under the busy rule. -/
theorem busyTurnsWritesAway : Obligations.BusyTurnsWritesAway := by
  intro s a d hb
  have hcommand (k : MessageType) : exec (commandOf k) s = .next s := by rw [exec_commandOf, unlessBusy_of_busy hb]
  exact ⟨by rw [exec_wr, unlessBusy_of_busy hb], hcommand .type1, hcommand .type2, hcommand .type3⟩

/-- The operand registers that store all eight bits: the offsets 0x00 to 0x19, which leaves FLAGS out (R31, R107). -/
def Location.isByteOperand : Location → Bool
  | .call _ | .callLen | .power | .loc4 _ | .loc6 _ | .pfx _ | .sfx => true
  | .flags | .cmd | .status | .sym _ | .reserved => false

theorem locationAt_isByteOperand {a : Byte} (ha : a.toNat ≤ 0x19) : (locationAt a).isByteOperand = true := by
  revert a; decide +kernel

section
variable {l : Location} (hl : l.isByteOperand = true)
include hl

theorem readLocation_writeLocation_same (s : State) (d : Byte) : readLocation (writeLocation s d l) l = d := by
  cases l with
  | call i | loc4 i | loc6 i | pfx i => exact Vector.getElem_set_self ..
  | callLen | power | sfx => rfl
  | flags | cmd | status | sym i | reserved => cases hl

/-- An operand register's write reaches no other element of its register and no other register. -/
theorem readLocation_writeLocation_ne {l' : Location} (hne : l' ≠ l) (s : State) (d : Byte) :
    readLocation (writeLocation s d l) l' = readLocation s l' := by
  have elem {n : Nat} (v : Vector Byte n) {i j : Fin n} (h : i ≠ j) : (v.set i d)[j] = v[j] :=
    Vector.getElem_set_ne _ _ (Fin.val_ne_of_ne h)
  cases l with
  | call i => cases l' with
    | call j => exact elem _ fun h => hne (h ▸ rfl)
    | _ => rfl
  | loc4 i => cases l' with
    | loc4 j => exact elem _ fun h => hne (h ▸ rfl)
    | _ => rfl
  | loc6 i => cases l' with
    | loc6 j => exact elem _ fun h => hne (h ▸ rfl)
    | _ => rfl
  | pfx i => cases l' with
    | pfx j => exact elem _ fun h => hne (h ▸ rfl)
    | _ => rfl
  | callLen => cases l' with
    | callLen => exact absurd rfl hne
    | _ => rfl
  | power => cases l' with
    | power => exact absurd rfl hne
    | _ => rfl
  | sfx => cases l' with
    | sfx => exact absurd rfl hne
    | _ => rfl
  | flags | cmd | status | sym i | reserved => cases hl

theorem writeLocation_frame (s : State) (d : Byte) : (writeLocation s d l).flags = s.flags ∧
    (writeLocation s d l).status = s.status ∧ (writeLocation s d l).sym = s.sym ∧ samePort s (writeLocation s d l) := by
  cases l with
  | call i | callLen | power | loc4 i | loc6 i | pfx i | sfx => exact ⟨rfl, rfl, rfl, rfl, rfl, rfl, rfl⟩
  | flags | cmd | status | sym i | reserved => cases hl

end

/-- Settles O16: what a read returns after a write of the same location and of another, since the offsets below FLAGS
have a location each. -/
theorem operandWriteStoresTheByte : Obligations.OperandWriteStoresTheByte := by
  intro s a d hb ha
  have hl : (locationAt a).isByteOperand = true := locationAt_isByteOperand ha
  have hres : locationAt a ≠ .reserved := fun h => by rw [h] at hl; cases hl
  exact ⟨_, exec_wr_of_not_busy hb a d, readLocation_writeLocation_same hl s d,
    fun b hba => readLocation_writeLocation_ne hl (fun h => hba (locationAt_inj h hres)) s d,
    writeLocation_frame hl s d⟩

end Sys2Proof.Machine

/-! Reset (70_reset_and_hazards.md): the reset event (R123) and the first command after it (R125). -/

namespace Sys2Proof.Machine

theorem step_of_reset {s : State} {rest : List HostEvent} (hin : s.inbox = .reset :: rest) :
    step s = .next (State.afterReset s.platform (s.resetCount + 1) rest) := by
  rcases step_cases s with ⟨h, _⟩ | ⟨_, h, hs⟩ | ⟨_, _, _, h, _, _⟩ | ⟨_, _, h, _, _⟩ <;> cases hin.symm.trans h
  exact hs

/-- The operand registers are the same after any two resets (R29). -/
theorem snapshot_afterReset (p p' : Platform) (k k' : Nat) (events events' : List HostEvent) :
    snapshot (State.afterReset p k events) = snapshot (State.afterReset p' k' events') := by
  simp only [snapshot, State.afterReset_call, State.afterReset_callLen, State.afterReset_power, State.afterReset_loc4,
    State.afterReset_loc6, State.afterReset_pfx, State.afterReset_sfx, State.afterReset_flags]

theorem statusBusy_afterReset (p : Platform) (k : Nat) (events : List HostEvent) :
    statusBusy (State.afterReset p k events) = false := by
  rw [statusBusy, State.afterReset_status]
  decide

/-- Settles O9: the state after a reset event has the operands of every reset. -/
theorem resetEventResets : Obligations.ResetEventResets := by
  intro s rest hin
  exact ⟨_, step_of_reset hin, snapshot_afterReset .., rfl, rfl, rfl, rfl, rfl⟩

theorem exec_wr_cmd_of_messageType {w : Byte} {k : MessageType} (hw : messageTypeOf w = some k) (s : State) :
    exec (.wr 0x1B w) s = exec (commandOf k) s := by
  rw [exec_wr_cmd, exec_commandOf, encodeCommand, hw]

/-- With CALL_LEN 0 the normalizer sees no character (R54). -/
theorem normCall_afterReset (p : Platform) (k : Nat) (events : List HostEvent) :
    normCall (State.afterReset p k events).call (State.afterReset p k events).callLen = Vector.replicate 6 0x20 := by
  rw [State.afterReset_call, State.afterReset_callLen]
  decide +kernel

theorem code_loc6_afterReset (p : Platform) (k : Nat) (events : List HostEvent) (i : Fin 6) :
    code (reorderLoc6 (State.afterReset p k events).loc6)[i] = 255 := by
  rw [State.afterReset_loc6]
  revert i
  decide +kernel

/-- Six spaces have no digit at position 2, and a sentinel is at no position of a string that passes (R66). -/
theorem not_packs_afterReset (t : MessageType) (p : Platform) (k : Nat) (events : List HostEvent) :
    ¬ Spec.Packs (callSignChars t (State.afterReset p k events)) := by
  have hcall : ¬ Spec.Packs (normCall (State.afterReset p k events).call (State.afterReset p k events).callLen) := by
    rw [normCall_afterReset]
    decide
  cases t with
  | type1 => exact hcall
  | type2 => exact hcall
  | type3 =>
    rw [callSignChars, ← reorderLoc6_eq]
    exact fun ⟨hcodes, _⟩ => hcodes 0 (code_loc6_afterReset p k events 0)

/-- Settles O10: whichever command comes first, the six characters it packs fail the positional check. -/
theorem firstCommandAfterResetFails : Obligations.FirstCommandAfterResetFails := by
  intro p k events
  refine ⟨normCall_afterReset p k events, code_loc6_afterReset p k events, fun w hw => ?_⟩
  obtain ⟨t, ht⟩ : ∃ t, messageTypeOf w = some t := by
    rcases hw with rfl | rfl | rfl
    exacts [⟨.type1, rfl⟩, ⟨.type2, rfl⟩, ⟨.type3, rfl⟩]
  rw [exec_wr_cmd_of_messageType ht]
  exact exec_commandOf_of_not_packs (statusBusy_afterReset ..) t (by rw [State.afterReset_callLen]; decide)
    (not_packs_afterReset t p k events)

end Sys2Proof.Machine
